-- ==== Sys2Proof/Word.lean ====
section
/-!
DEFINITION. The word types of the machine: the widths of spec/00_scope.md R8 and of the opcode fields of
spec/30_encoding.md R71. Every value is an unsigned bit field of its width (R10).
-/

namespace Sys2Proof

/-- 8 bits: a general register, a timer, a byte of `ram`, the field `NN`. -/
abbrev Byte := BitVec 8

/-- 16 bits: an instruction word, `pc`, `I`, `sp`, a stack slot, a key mask. -/
abbrev Word := BitVec 16

/-- 4 bits: a register number, the field `X` or `Y`. -/
abbrev Reg := BitVec 4

/-- 4 bits: the field `N`. -/
abbrev Nibble := BitVec 4

/-- 12 bits: the field `NNN`, an address of `ram`. -/
abbrev Addr := BitVec 12

/-- `VF` is `V[15]` (spec/10_state.md R21, R22). -/
abbrev vf : Reg := 0xF#4

end Sys2Proof
end

