-- ==== Sys2Proof/Syntax.lean ====
section
/-!
DEFINITION. The instructions: one constructor for each of the 34 rows of spec/opcode_table.json, in the table's
order (spec/30_encoding.md R76). The operands are the fields of R71 that the row's format uses (R72).
-/

namespace Sys2Proof

/-- The 34 instructions of R76. -/
inductive Instr where
  /-- 00E0 `CLS` (R171). -/
  | cls
  /-- 00EE `RET` (R101). -/
  | ret
  /-- 1NNN `JP` (R102). -/
  | jp (nnn : Addr)
  /-- 2NNN `CALL` (R103). -/
  | call (nnn : Addr)
  /-- 3XNN `SE_VX_NN` (R104). -/
  | seVxNn (x : Reg) (nn : Byte)
  /-- 4XNN `SNE_VX_NN` (R105). -/
  | sneVxNn (x : Reg) (nn : Byte)
  /-- 5XY0 `SE_VX_VY` (R106). -/
  | seVxVy (x y : Reg)
  /-- 6XNN `LD_VX_NN` (R121). -/
  | ldVxNn (x : Reg) (nn : Byte)
  /-- 7XNN `ADD_VX_NN` (R122). -/
  | addVxNn (x : Reg) (nn : Byte)
  /-- 8XY0 `LD_VX_VY` (R123). -/
  | ldVxVy (x y : Reg)
  /-- 8XY1 `OR` (R124). -/
  | orVxVy (x y : Reg)
  /-- 8XY2 `AND` (R125). -/
  | andVxVy (x y : Reg)
  /-- 8XY3 `XOR` (R126). -/
  | xorVxVy (x y : Reg)
  /-- 8XY4 `ADD_VX_VY` (R127). -/
  | addVxVy (x y : Reg)
  /-- 8XY5 `SUB` (R128). -/
  | sub (x y : Reg)
  /-- 8XY6 `SHR` (R129). -/
  | shr (x y : Reg)
  /-- 8XY7 `SUBN` (R130). -/
  | subn (x y : Reg)
  /-- 8XYE `SHL` (R131). -/
  | shl (x y : Reg)
  /-- 9XY0 `SNE_VX_VY` (R107). -/
  | sneVxVy (x y : Reg)
  /-- ANNN `LD_I` (R150). -/
  | ldI (nnn : Addr)
  /-- BNNN `JP_V0` (R108). R74 decodes it as `JP_V0(X, NNN)`: `x` is bits 11..8 of the word, which are also the top
  nibble of `nnn` (R72); `Instr.wf` says that the two agree. -/
  | jpV0 (x : Reg) (nnn : Addr)
  /-- CXNN `RND` (R132). -/
  | rnd (x : Reg) (nn : Byte)
  /-- DXYN `DRW` (R172). -/
  | drw (x y : Reg) (n : Nibble)
  /-- EX9E `SKP` (R191). -/
  | skp (x : Reg)
  /-- EXA1 `SKNP` (R192). -/
  | sknp (x : Reg)
  /-- FX07 `LD_VX_DT` (R195). -/
  | ldVxDt (x : Reg)
  /-- FX0A `LD_VX_K` (R193). -/
  | ldVxK (x : Reg)
  /-- FX15 `LD_DT_VX` (R196). -/
  | ldDtVx (x : Reg)
  /-- FX18 `LD_ST_VX` (R197). -/
  | ldStVx (x : Reg)
  /-- FX1E `ADD_I_VX` (R151). -/
  | addIVx (x : Reg)
  /-- FX29 `LD_F_VX` (R152). -/
  | ldFVx (x : Reg)
  /-- FX33 `LD_B_VX` (R153). -/
  | ldBVx (x : Reg)
  /-- FX55 `LD_MI_VX` (R154). -/
  | ldMiVx (x : Reg)
  /-- FX65 `LD_VX_MI` (R155). -/
  | ldVxMi (x : Reg)
deriving DecidableEq, Repr

end Sys2Proof
end

