-- ==== Sys2Proof/WellFormed.lean ====
section
/-!
DEFINITION. Which terms of `Instr` are instructions of the machine. Every field but one is bounded by its type
(R71 gives its width); the one relation between fields is that of BNNN, whose X is the top nibble of its NNN
(spec/30_encoding.md R72, spec/40_control_flow.md R108).
-/

namespace Sys2Proof

/-- The check of BNNN: `x` = `nnn[11:8]` (R72, R108). -/
def jumpRegisterAgrees (x : Reg) (nnn : Addr) : Bool :=
  x == nnn.extractLsb' 8 4

/-- An instruction is well formed when its fields could come from one word. -/
def Instr.wf : Instr → Bool
  | .jpV0 x nnn => jumpRegisterAgrees x nnn
  | .cls | .ret | .jp _ | .call _ | .seVxNn _ _ | .sneVxNn _ _ | .seVxVy _ _ | .ldVxNn _ _ | .addVxNn _ _
  | .ldVxVy _ _ | .orVxVy _ _ | .andVxVy _ _ | .xorVxVy _ _ | .addVxVy _ _ | .sub _ _ | .shr _ _ | .subn _ _
  | .shl _ _ | .sneVxVy _ _ | .ldI _ | .rnd _ _ | .drw _ _ _ | .skp _ | .sknp _ | .ldVxDt _ | .ldVxK _
  | .ldDtVx _ | .ldStVx _ | .addIVx _ | .ldFVx _ | .ldBVx _ | .ldMiVx _ | .ldVxMi _ => true

end Sys2Proof
end

