-- ==== Sys2Proof/Decode.lean ====
section
/-!
DEFINITION. The decoder and the encoder (spec/30_encoding.md R70 to R82). The decoder is total on all 65536 words;
a word that is no instruction is rejected by the name of its group (R77). Decoding consults no state (R82).
-/

namespace Sys2Proof

/-! ## Fields (R71) -/

/-- `T` = `w[15:12]`. -/
def fieldT (w : Word) : Nibble := w.extractLsb' 12 4

/-- `X` = `w[11:8]`. -/
def fieldX (w : Word) : Reg := w.extractLsb' 8 4

/-- `Y` = `w[7:4]`. -/
def fieldY (w : Word) : Reg := w.extractLsb' 4 4

/-- `N` = `w[3:0]`. -/
def fieldN (w : Word) : Nibble := w.extractLsb' 0 4

/-- `NN` = `w[7:0]`. -/
def fieldNN (w : Word) : Byte := w.extractLsb' 0 8

/-- `NNN` = `w[11:0]`. -/
def fieldNNN (w : Word) : Addr := w.extractLsb' 0 12

/-! ## Decode -/

/-- The groups that have illegal words, one name each (the rows of R77's table). -/
inductive Reject where
  /-- 0x0NNN other than 0x00E0 and 0x00EE (R78). -/
  | group0
  /-- 0x5XYN with N ≠ 0 (R79). -/
  | group5
  /-- 0x8XYN with N ∈ {8, 9, A, B, C, D, F}. -/
  | group8
  /-- 0x9XYN with N ≠ 0 (R80). -/
  | group9
  /-- 0xEXNN with NN ∉ {9E, A1}. -/
  | groupE
  /-- 0xFXNN with NN not one of the nine sub-opcodes. -/
  | groupF
deriving DecidableEq, Repr

/-- What a word decodes to: an instruction, or UNRECOGNIZED with the group that rejects it (R74, R77). -/
inductive Decoded where
  | instr (i : Instr)
  | unrecognized (why : Reject)
deriving DecidableEq, Repr

/-- Group 0: matched on the whole word (R74, R78). -/
def decodeGroup0 (w : Word) : Decoded :=
  if w = 0x00E0#16 then .instr .cls
  else if w = 0x00EE#16 then .instr .ret
  else .unrecognized .group0

/-- Group 8: on the low nibble (R74). -/
def decodeGroup8 (w : Word) : Decoded :=
  let n := fieldN w
  let x := fieldX w
  let y := fieldY w
  if n = 0x0#4 then .instr (.ldVxVy x y)
  else if n = 0x1#4 then .instr (.orVxVy x y)
  else if n = 0x2#4 then .instr (.andVxVy x y)
  else if n = 0x3#4 then .instr (.xorVxVy x y)
  else if n = 0x4#4 then .instr (.addVxVy x y)
  else if n = 0x5#4 then .instr (.sub x y)
  else if n = 0x6#4 then .instr (.shr x y)
  else if n = 0x7#4 then .instr (.subn x y)
  else if n = 0xE#4 then .instr (.shl x y)
  else .unrecognized .group8

/-- Group E: on the low byte (R74). -/
def decodeGroupE (w : Word) : Decoded :=
  let nn := fieldNN w
  let x := fieldX w
  if nn = 0x9E#8 then .instr (.skp x)
  else if nn = 0xA1#8 then .instr (.sknp x)
  else .unrecognized .groupE

/-- Group F: on the low byte (R74). -/
def decodeGroupF (w : Word) : Decoded :=
  let nn := fieldNN w
  let x := fieldX w
  if nn = 0x07#8 then .instr (.ldVxDt x)
  else if nn = 0x0A#8 then .instr (.ldVxK x)
  else if nn = 0x15#8 then .instr (.ldDtVx x)
  else if nn = 0x18#8 then .instr (.ldStVx x)
  else if nn = 0x1E#8 then .instr (.addIVx x)
  else if nn = 0x29#8 then .instr (.ldFVx x)
  else if nn = 0x33#8 then .instr (.ldBVx x)
  else if nn = 0x55#8 then .instr (.ldMiVx x)
  else if nn = 0x65#8 then .instr (.ldVxMi x)
  else .unrecognized .groupF

/-- The decode function of R74: first on the top nibble, then within the group. -/
def decode (w : Word) : Decoded :=
  let t := fieldT w
  if t = 0x0#4 then decodeGroup0 w
  else if t = 0x1#4 then .instr (.jp (fieldNNN w))
  else if t = 0x2#4 then .instr (.call (fieldNNN w))
  else if t = 0x3#4 then .instr (.seVxNn (fieldX w) (fieldNN w))
  else if t = 0x4#4 then .instr (.sneVxNn (fieldX w) (fieldNN w))
  else if t = 0x5#4 then
    if fieldN w = 0x0#4 then .instr (.seVxVy (fieldX w) (fieldY w)) else .unrecognized .group5
  else if t = 0x6#4 then .instr (.ldVxNn (fieldX w) (fieldNN w))
  else if t = 0x7#4 then .instr (.addVxNn (fieldX w) (fieldNN w))
  else if t = 0x8#4 then decodeGroup8 w
  else if t = 0x9#4 then
    if fieldN w = 0x0#4 then .instr (.sneVxVy (fieldX w) (fieldY w)) else .unrecognized .group9
  else if t = 0xA#4 then .instr (.ldI (fieldNNN w))
  else if t = 0xB#4 then .instr (.jpV0 (fieldX w) (fieldNNN w))
  else if t = 0xC#4 then .instr (.rnd (fieldX w) (fieldNN w))
  else if t = 0xD#4 then .instr (.drw (fieldX w) (fieldY w) (fieldN w))
  else if t = 0xE#4 then decodeGroupE w
  else decodeGroupF w

/-- The word of two bytes in `ram` order: the byte at the lower address is bits 15..8 (R51, R52). -/
def wordOfBytes (hi lo : Byte) : Word := (hi.setWidth 16 <<< 8) ||| lo.setWidth 16

/-- The decoder on an instruction's two bytes in `ram` order; exactly two bytes are consumed (R70). -/
def decodeBytes (hi lo : Byte) : Decoded := decode (wordOfBytes hi lo)

/-- The instruction the decoder reads from an opcode-table word: bit 0 of `w` is the least significant bit of the
word, every bit from `nbits` up is 0, and the word lies in `ram` high byte first (R52). -/
def decodeTableWord (nbits w : Nat) : Option Instr :=
  let word : Word := BitVec.ofNat 16 (w % 2 ^ nbits)
  match decodeBytes (word.extractLsb' 8 8) (word.extractLsb' 0 8) with
  | .instr i => some i
  | .unrecognized _ => none

/-! ## Encode: the "Encoding" line of each instruction's rule -/

/-- `t<<12 | x<<8 | NN`: the XNN format (R72). -/
def encodeXNN (base : Word) (x : Reg) (nn : Byte) : Word :=
  base ||| (x.setWidth 16 <<< 8) ||| nn.setWidth 16

/-- `base | x<<8 | y<<4`: the XY format (R72). -/
def encodeXY (base : Word) (x y : Reg) : Word :=
  base ||| (x.setWidth 16 <<< 8) ||| (y.setWidth 16 <<< 4)

/-- `base | x<<8`: the X format (R72). -/
def encodeX (base : Word) (x : Reg) : Word := base ||| (x.setWidth 16 <<< 8)

/-- `base | NNN`: the A format (R72). -/
def encodeA (base : Word) (nnn : Addr) : Word := base ||| nnn.setWidth 16

/-- The word of an instruction, as the Encoding line of its rule gives it (R101 to R197). -/
def encode : Instr → Word
  | .cls => 0x00E0#16
  | .ret => 0x00EE#16
  | .jp nnn => encodeA 0x1000#16 nnn
  | .call nnn => encodeA 0x2000#16 nnn
  | .seVxNn x nn => encodeXNN 0x3000#16 x nn
  | .sneVxNn x nn => encodeXNN 0x4000#16 x nn
  | .seVxVy x y => encodeXY 0x5000#16 x y
  | .ldVxNn x nn => encodeXNN 0x6000#16 x nn
  | .addVxNn x nn => encodeXNN 0x7000#16 x nn
  | .ldVxVy x y => encodeXY 0x8000#16 x y
  | .orVxVy x y => encodeXY 0x8001#16 x y
  | .andVxVy x y => encodeXY 0x8002#16 x y
  | .xorVxVy x y => encodeXY 0x8003#16 x y
  | .addVxVy x y => encodeXY 0x8004#16 x y
  | .sub x y => encodeXY 0x8005#16 x y
  | .shr x y => encodeXY 0x8006#16 x y
  | .subn x y => encodeXY 0x8007#16 x y
  | .shl x y => encodeXY 0x800E#16 x y
  | .sneVxVy x y => encodeXY 0x9000#16 x y
  | .ldI nnn => encodeA 0xA000#16 nnn
  | .jpV0 _ nnn => encodeA 0xB000#16 nnn
  | .rnd x nn => encodeXNN 0xC000#16 x nn
  | .drw x y n => encodeXY 0xD000#16 x y ||| n.setWidth 16
  | .skp x => encodeX 0xE09E#16 x
  | .sknp x => encodeX 0xE0A1#16 x
  | .ldVxDt x => encodeX 0xF007#16 x
  | .ldVxK x => encodeX 0xF00A#16 x
  | .ldDtVx x => encodeX 0xF015#16 x
  | .ldStVx x => encodeX 0xF018#16 x
  | .addIVx x => encodeX 0xF01E#16 x
  | .ldFVx x => encodeX 0xF029#16 x
  | .ldBVx x => encodeX 0xF033#16 x
  | .ldMiVx x => encodeX 0xF055#16 x
  | .ldVxMi x => encodeX 0xF065#16 x

/-- The two bytes of a word in `ram` order, high byte first (R52). -/
def bytesOfWord (w : Word) : Byte × Byte := (w.extractLsb' 8 8, w.extractLsb' 0 8)

/-- The mask of an instruction's row in R76: the bits that its pattern fixes. -/
def rowMask : Instr → Word
  | .cls | .ret => 0xFFFF#16
  | .jp _ | .call _ | .seVxNn _ _ | .sneVxNn _ _ | .ldVxNn _ _ | .addVxNn _ _ | .ldI _ | .jpV0 _ _ | .rnd _ _
  | .drw _ _ _ => 0xF000#16
  | .seVxVy _ _ | .ldVxVy _ _ | .orVxVy _ _ | .andVxVy _ _ | .xorVxVy _ _ | .addVxVy _ _ | .sub _ _ | .shr _ _
  | .subn _ _ | .shl _ _ | .sneVxVy _ _ => 0xF00F#16
  | .skp _ | .sknp _ | .ldVxDt _ | .ldVxK _ | .ldDtVx _ | .ldStVx _ | .addIVx _ | .ldFVx _ | .ldBVx _ | .ldMiVx _
  | .ldVxMi _ => 0xF0FF#16

/-- The match of an instruction's row in R76: the value of the fixed bits. -/
def rowMatch : Instr → Word
  | .cls => 0x00E0#16
  | .ret => 0x00EE#16
  | .jp _ => 0x1000#16
  | .call _ => 0x2000#16
  | .seVxNn _ _ => 0x3000#16
  | .sneVxNn _ _ => 0x4000#16
  | .seVxVy _ _ => 0x5000#16
  | .ldVxNn _ _ => 0x6000#16
  | .addVxNn _ _ => 0x7000#16
  | .ldVxVy _ _ => 0x8000#16
  | .orVxVy _ _ => 0x8001#16
  | .andVxVy _ _ => 0x8002#16
  | .xorVxVy _ _ => 0x8003#16
  | .addVxVy _ _ => 0x8004#16
  | .sub _ _ => 0x8005#16
  | .shr _ _ => 0x8006#16
  | .subn _ _ => 0x8007#16
  | .shl _ _ => 0x800E#16
  | .sneVxVy _ _ => 0x9000#16
  | .ldI _ => 0xA000#16
  | .jpV0 _ _ => 0xB000#16
  | .rnd _ _ => 0xC000#16
  | .drw _ _ _ => 0xD000#16
  | .skp _ => 0xE09E#16
  | .sknp _ => 0xE0A1#16
  | .ldVxDt _ => 0xF007#16
  | .ldVxK _ => 0xF00A#16
  | .ldDtVx _ => 0xF015#16
  | .ldStVx _ => 0xF018#16
  | .addIVx _ => 0xF01E#16
  | .ldFVx _ => 0xF029#16
  | .ldBVx _ => 0xF033#16
  | .ldMiVx _ => 0xF055#16
  | .ldVxMi _ => 0xF065#16

/-- The 34 rows of R76 as (match, mask): `w` is the row's instruction exactly when `w & mask = match`. -/
def opcodeRows : List (Word × Word) :=
  [(0x00E0#16, 0xFFFF#16), (0x00EE#16, 0xFFFF#16), (0x1000#16, 0xF000#16), (0x2000#16, 0xF000#16),
   (0x3000#16, 0xF000#16), (0x4000#16, 0xF000#16), (0x5000#16, 0xF00F#16), (0x6000#16, 0xF000#16),
   (0x7000#16, 0xF000#16), (0x8000#16, 0xF00F#16), (0x8001#16, 0xF00F#16), (0x8002#16, 0xF00F#16),
   (0x8003#16, 0xF00F#16), (0x8004#16, 0xF00F#16), (0x8005#16, 0xF00F#16), (0x8006#16, 0xF00F#16),
   (0x8007#16, 0xF00F#16)] ++
  [(0x800E#16, 0xF00F#16), (0x9000#16, 0xF00F#16), (0xA000#16, 0xF000#16), (0xB000#16, 0xF000#16),
   (0xC000#16, 0xF000#16), (0xD000#16, 0xF000#16), (0xE09E#16, 0xF0FF#16), (0xE0A1#16, 0xF0FF#16),
   (0xF007#16, 0xF0FF#16), (0xF00A#16, 0xF0FF#16), (0xF015#16, 0xF0FF#16), (0xF018#16, 0xF0FF#16),
   (0xF01E#16, 0xF0FF#16), (0xF029#16, 0xF0FF#16), (0xF033#16, 0xF0FF#16), (0xF055#16, 0xF0FF#16),
   (0xF065#16, 0xF0FF#16)]

end Sys2Proof
end

