-- ==== Sys2Proof/Config.lean ====
section
/-!
DEFINITION. What an implementation fixes, and the free values.

spec/00_scope.md R9 names the parameters the source leaves open and asks a model to take each as an argument.
`VF_ORDER`, `SYS_POLICY` and `FONT` are arguments by way of `State.params` (log entries 1 to 3): no command ever
writes them, so a statement about every state is a statement about every value of them. `RandomByte` and the value
of `cycles` after a Step are free values (log entries 4 and 5): opaque constants of which nothing can be proved.
-/

namespace Sys2Proof

/-- The built-in font image: 16 glyphs of 5 bytes (R8, R9). -/
abbrev Font := Vector Byte 80

/-- `VF_ORDER` (R9, spec/41_register_alu.md R120): which of the two writes to VF is last when 8XY5, 8XY6, 8XY7 or
8XYE has X = 0xF. -/
inductive VfOrder where
  | tableOrder
  | flagLast
deriving DecidableEq, Repr

/-- `SYS_POLICY` (R9, spec/30_encoding.md R78): what becomes of a 0x0NNN word other than 00E0 and 00EE. -/
inductive SysPolicy where
  | unrecognized
  | refuse
deriving DecidableEq, Repr

/-- The named parameters of R9 that a rule can observe. -/
structure Params where
  vfOrder : VfOrder
  sysPolicy : SysPolicy
  font : Font
deriving DecidableEq, Repr

namespace Config

/-- `RandomByte` (spec/60_exceptions.md R224, D20): the byte of the k-th draw of a run. A free value: "no statistical
requirement". DESIGN CHOICE, safe, log entry 4. -/
opaque randomByte : Nat → Byte

/-- The value of the diagnostic counter `cycles` after a Step (spec/10_state.md R39, spec/93 row 10: "the value after
any Step is any value"). A free value. DESIGN CHOICE, safe, log entry 5. -/
opaque cyclesAfter : Nat → Nat

/-- `RAM_SIZE` (R8). -/
abbrev ramSize : Nat := 4096

/-- `FONT_SIZE` (R8): the font lies at 0x000..0x04F. -/
abbrev fontSize : Nat := 80

/-- `ENTRY` (R8): the program entry and load address. -/
abbrev entry : Word := 0x200#16

end Config

end Sys2Proof
end

