-- ==== Sys2Proof/Machine/Defaults.lean ====
section
/-!
DEFINITION. The values that `State.reset` gives the parameters of spec/00_scope.md R9: in each case the default that
R9 itself names. No statement about every state rests on them (log entries 1 to 3).
-/

namespace Sys2Proof.Machine

/-- Glyphs 0 to 7 of the spec's default `FONT` (D14, from general knowledge, not in the source). -/
def fontLow : Vector Byte 40 :=
  #v[0xF0#8, 0x90#8, 0x90#8, 0x90#8, 0xF0#8,
     0x20#8, 0x60#8, 0x20#8, 0x20#8, 0x70#8,
     0xF0#8, 0x10#8, 0xF0#8, 0x80#8, 0xF0#8,
     0xF0#8, 0x10#8, 0xF0#8, 0x10#8, 0xF0#8,
     0x90#8, 0x90#8, 0xF0#8, 0x10#8, 0x10#8,
     0xF0#8, 0x80#8, 0xF0#8, 0x10#8, 0xF0#8,
     0xF0#8, 0x80#8, 0xF0#8, 0x90#8, 0xF0#8,
     0xF0#8, 0x10#8, 0x20#8, 0x40#8, 0x40#8]

/-- Glyphs 8 to F of the spec's default `FONT` (D14). -/
def fontHigh : Vector Byte 40 :=
  #v[0xF0#8, 0x90#8, 0xF0#8, 0x90#8, 0xF0#8,
     0xF0#8, 0x90#8, 0xF0#8, 0x10#8, 0xF0#8,
     0xF0#8, 0x90#8, 0xF0#8, 0x90#8, 0x90#8,
     0xE0#8, 0x90#8, 0xE0#8, 0x90#8, 0xE0#8,
     0xF0#8, 0x80#8, 0x80#8, 0x80#8, 0xF0#8,
     0xE0#8, 0x90#8, 0x90#8, 0x90#8, 0xE0#8,
     0xF0#8, 0x80#8, 0xF0#8, 0x80#8, 0xF0#8,
     0xF0#8, 0x80#8, 0xF0#8, 0x80#8, 0x80#8]

/-- The spec's default `FONT`, glyph g at bytes 5g to 5g + 4 (D14). PRESUMED, log entry 1. -/
def defaultFont : Font := fontLow ++ fontHigh

/-- The spec's default `VF_ORDER` (R9, D7). DESIGN CHOICE, log entry 2. -/
def defaultVfOrder : VfOrder := .tableOrder

/-- The spec's default `SYS_POLICY` (R9, D3). DESIGN CHOICE, log entry 3. -/
def defaultSysPolicy : SysPolicy := .unrecognized

/-- The parameters of a run that starts at `State.reset`. -/
def defaultParams : Params :=
  { vfOrder := defaultVfOrder, sysPolicy := defaultSysPolicy, font := defaultFont }

end Sys2Proof.Machine
end

