-- ==== Sys2Proof/Machine/State.lean ====
section
/-!
DEFINITION. The state of the block (spec/10_state.md R20 to R43), the reasons a Step can stop, and the state after
reset, which is the state after `Init` (R41; spec/70_reset_and_hazards.md R247).
-/

namespace Sys2Proof.Machine

/-- `cpu_state` (R35). -/
inductive CpuState where
  | executing
  | halted
  | errorOpcode
deriving DecidableEq, Repr

/-- `ram` as plain data: the bytes that differ from what `ram` holds after `Init`, in rising order of address.
`Memory.wf` (Machine/Ops.lean) is that form. -/
abbrev Memory := List Host.Cell

/-- The 64×32 bitmap (R30): row `py` is a 64-bit word whose bit `63 - px` is pixel (px, py)
(spec/43_display_blitter.md R180). The layout is not observable (R31); log entry 10. -/
abbrev Display := Vector (BitVec 64) 32

/-- The undefined outcomes of spec/60_exceptions.md R213 and R214. "The model must not give such a command any
value-producing outcome", so each stops the run. Every one is safe: the real core does something, and no claim can
rely on what (D6, D9, D12). Log entry 6. -/
inductive Fault where
  /-- Raised by 2NNN with `sp` ≥ 15 (R103). Safe. -/
  | stackOverflow
  /-- Raised by 00EE with `sp` = 0 or `sp` > 15 (R101). Safe. -/
  | stackUnderflow
  /-- Raised by a Step with `cpu_state` = EXECUTING and `pc` > 0xFFF, before the fetch (R212). Safe. -/
  | pcRange
  /-- Raised by EX9E and EXA1 with `V[x]` > 15 (R190 to R192). Safe. -/
  | keyIndex
deriving DecidableEq, Repr

/-- Why the model gives a Step no meaning. -/
inductive Refusal where
  /-- Raised by an arm of `exec` whose instruction has no meaning yet. Safe. No arm of this model raises it. -/
  | notModelled (mnemonic : String)
  /-- Raised by a Step, under the parameter `SYS_POLICY` = `Refuse` only, that fetches a 0x0NNN word other than 00E0
  and 00EE (spec/60_exceptions.md R232). Safe: no claim then rests on the source's 35th handler being absent. -/
  | unlistedHandler (w : Word)
deriving DecidableEq, Repr

/-- The state elements of R20, in the order of the table of R41, then the model's own fields. -/
structure State where
  /-- `V[0..15]` (R21). -/
  v : Vector Byte 16
  /-- `I` (R25). -/
  i : Word
  /-- `pc` (R23). -/
  pc : Word
  /-- `sp` (R26). -/
  sp : Word
  /-- `stack[0..15]` (R27). -/
  stack : Vector Word 16
  /-- `opcode`, the most recently fetched word (R36). -/
  opcode : Word
  /-- `keypad`: bit k is key k, 1 = pressed (R37). -/
  keypad : Word
  /-- `fxoa_state`: the keys FX0A has seen down (R38). -/
  fxoaState : Word
  /-- `delay_timer` (R28). -/
  delayTimer : Byte
  /-- `sound_timer` (R29). -/
  soundTimer : Byte
  /-- `cpu_state` (R35). -/
  cpuState : CpuState
  /-- `cycles`, the diagnostic counter (R39); its width is unspecified (R41). Log entry 5. -/
  cycles : Nat
  /-- `quirks` (R33). -/
  quirks : Byte
  /-- `ram` (R40). -/
  ram : Memory
  /-- `display` (R30). -/
  display : Display
  /-- `draw_display` (R32). -/
  drawDisplay : Byte
  /-- The model's own: the parameters of R9, which no command writes. Log entries 1 to 3. -/
  params : Params
  /-- The model's own: how many bytes CXNN has drawn (R224). Log entry 4. -/
  draws : Nat
  /-- The model's own: how many free values `cycles` has taken. Log entry 5. -/
  cycleDraws : Nat
deriving DecidableEq, Repr

/-- The state after `Init` (R41, column "after `Init`"). Nothing is listed in `ram`: an unlisted byte reads as `Init`
leaves it, `FONT` at 0x000..0x04F and 0 elsewhere (R40). -/
def State.reset : State where
  v := Vector.replicate 16 0
  i := 0
  pc := Config.entry
  sp := 0
  stack := Vector.replicate 16 0
  opcode := 0
  keypad := 0
  fxoaState := 0
  delayTimer := 0
  soundTimer := 0
  cpuState := .executing
  cycles := 0
  quirks := 0
  ram := []
  display := Vector.replicate 32 0
  drawDisplay := 0
  params := defaultParams
  draws := 0
  cycleDraws := 0

end Sys2Proof.Machine
end

