-- ==== Sys2Proof/Machine/Ops.lean ====
section
/-!
DEFINITION. The named operations over memory, registers, `pc`, the call stack, the display and the control state, and
the one error outcome with the one way out of it. Every meaning reads and writes the machine through these.
-/

namespace Sys2Proof.Machine

/-! ## Memory (spec/20_memory.md) -/

/-- What a byte that is not listed reads as: the content `Init` gives it (spec/10_state.md R40: `FONT` at 0x000..0x04F,
0 elsewhere). -/
def unlisted (font : Font) (a : Nat) : Byte :=
  if h : a < Config.fontSize then font[a] else 0

/-- The byte at address `a` < 4096. -/
def Memory.get (font : Font) (m : Memory) (a : Nat) : Byte :=
  (m.lookup a).getD (unlisted font a)

/-- Writes the byte at address `a` < 4096, keeping the canonical form: writing what an unlisted byte reads as removes
the entry. -/
def Memory.set (font : Font) : Memory → Nat → Byte → Memory
  | [], a, b => if b = unlisted font a then [] else [(a, b)]
  | (k, c) :: m, a, b =>
    if a < k then
      if b = unlisted font a then (k, c) :: m else (a, b) :: (k, c) :: m
    else if a = k then
      if b = unlisted font a then m else (a, b) :: m
    else (k, c) :: Memory.set font m a b

/-- The canonical form: addresses strictly rising and below 4096, no byte equal to what it would read as unlisted. -/
abbrev Memory.wf (font : Font) (m : Memory) : Prop :=
  m.Pairwise (fun c d => c.1 < d.1) ∧ ∀ c ∈ m, c.1 < Config.ramSize ∧ c.2 ≠ unlisted font c.1

/-- The canonical memory in which the font region holds zeros and the rest is as after `Init`. -/
def Memory.zeros (font : Font) : Memory :=
  (List.range Config.fontSize).filterMap fun a => if unlisted font a = 0 then none else some (a, 0)

/-- `MemRead(a, 1)`, for any natural `a`: the byte `ram[a & 0xFFF]` (R54, spec/00_scope.md R11). -/
def State.memRead (s : State) (a : Nat) : Byte :=
  Memory.get s.params.font s.ram (a % Config.ramSize)

/-- `MemWrite(a, 1, b)`: `ram[a & 0xFFF] <- b` (R54). -/
def State.memWrite (s : State) (a : Nat) (b : Byte) : State :=
  { s with ram := Memory.set s.params.font s.ram (a % Config.ramSize) b }

/-- `ram` is in its canonical form. -/
abbrev State.memWf (s : State) : Prop := Memory.wf s.params.font s.ram

/-- `Fetch16(a)`: the byte at the lower address is bits 15..8 (R51; spec/00_scope.md R11). -/
def State.fetch16At (s : State) (a : Nat) : Word :=
  ((s.memRead a).setWidth 16 <<< 8) ||| (s.memRead (a + 1)).setWidth 16

/-- The word a Step fetches (R51). -/
def State.fetch16 (s : State) : Word := s.fetch16At s.pc.toNat

/-! ## Registers (spec/10_state.md) -/

/-- `V[x]` (R21). -/
def State.reg (s : State) (x : Reg) : Byte := s.v[x.toNat]'x.isLt

/-- `V[x] <- b` (R21). -/
def State.setReg (s : State) (x : Reg) (b : Byte) : State := { s with v := s.v.set x.toNat b x.isLt }

/-- `I <- w`: every value the block writes to `I` is masked to 12 bits (R25, D5). -/
def State.setI (s : State) (w : Word) : State := { s with i := w &&& 0x0FFF#16 }

/-- `pc <- target`: every value the block writes to `pc` is masked to 12 bits (spec/20_memory.md R55). -/
def State.setPc (s : State) (w : Word) : State := { s with pc := w &&& 0x0FFF#16 }

/-- The normal advance, `pc <- pc + 2` (spec/40_control_flow.md R100). -/
def State.advance (s : State) : State := s.setPc (s.pc + 2)

/-- The end of a conditional skip: `pc + 4` when the condition holds, else `pc + 2` (R100). -/
def State.skipIf (s : State) (taken : Bool) : State := if taken then s.setPc (s.pc + 4) else s.setPc (s.pc + 2)

/-- `sp <- w` (R26). -/
def State.setSp (s : State) (w : Word) : State := { s with sp := w }

/-- `stack[k]` (R27). Its users check 0 ≤ k ≤ 15 first; the index is reduced mod 16 only to be total (log entry 14). -/
def State.stackSlot (s : State) (k : Word) : Word := s.stack[k.toNat % 16]'(Nat.mod_lt _ (by decide))

/-- `stack[k] <- w` (R27). -/
def State.setStackSlot (s : State) (k w : Word) : State :=
  { s with stack := s.stack.set (k.toNat % 16) w (Nat.mod_lt _ (by decide)) }

/-- `opcode <- w` (R36). -/
def State.setOpcode (s : State) (w : Word) : State := { s with opcode := w }

/-- `fxoa_state <- w` (R38). -/
def State.setFxoa (s : State) (w : Word) : State := { s with fxoaState := w }

/-- `delay_timer <- b` (R28). -/
def State.setDelay (s : State) (b : Byte) : State := { s with delayTimer := b }

/-- `sound_timer <- b` (R29). -/
def State.setSound (s : State) (b : Byte) : State := { s with soundTimer := b }

/-- `draw_display <- b` (R32). -/
def State.setDrawDisplay (s : State) (b : Byte) : State := { s with drawDisplay := b }

/-- `cpu_state <- c` (R35). -/
def State.setCpu (s : State) (c : CpuState) : State := { s with cpuState := c }

/-- The whole bitmap is replaced. -/
def State.setDisplay (s : State) (d : Display) : State := { s with display := d }

/-! ## Quirks (R33) -/

/-- The quirk flags by name. -/
inductive Quirk where
  | shiftXRegister
  | zeroVf
  | clearScreenOnReset
  | incrementI
  | jumpVx
  | displayClipping
  | displayWait
deriving DecidableEq, Repr

/-- The bit of a quirk in `quirks` (the table of R33). -/
def Quirk.bit : Quirk → Nat
  | .shiftXRegister => 0
  | .zeroVf => 1
  | .clearScreenOnReset => 2
  | .incrementI => 3
  | .jumpVx => 4
  | .displayClipping => 5
  | .displayWait => 6

/-- `Q(name)` (spec/00_scope.md R11). -/
def State.quirk (s : State) (q : Quirk) : Bool := s.quirks.getLsbD q.bit

/-! ## Display: the pixel operations of spec/43_display_blitter.md R170 -/

/-- The one-pixel mask of column `px` in a display row. -/
def pixelMask (px : Fin 64) : BitVec 64 := 1#64 <<< (63 - px.val)

/-- get: `Pix(px, py)`. -/
def Display.pix (d : Display) (px : Fin 64) (py : Fin 32) : Bool := d[py].getLsbD (63 - px.val)

/-- set: `Pix(px, py) <- 1`. -/
def Display.setPix (d : Display) (px : Fin 64) (py : Fin 32) : Display :=
  d.set py (d[py] ||| pixelMask px)

/-- clear: `Pix(px, py) <- 0`. -/
def Display.clearPix (d : Display) (px : Fin 64) (py : Fin 32) : Display :=
  d.set py (d[py] &&& ~~~ pixelMask px)

/-- toggle: `Pix(px, py) <- 1 - Pix(px, py)`. -/
def Display.togglePix (d : Display) (px : Fin 64) (py : Fin 32) : Display :=
  d.set py (d[py] ^^^ pixelMask px)

/-- The bitmap with every pixel 0. -/
def Display.clear : Display := Vector.replicate 32 0

/-- Byte `k` of the packed image: row `k / 8`, the eight pixels from column `8 (k mod 8)`, the smallest x in bit 7
(spec/10_state.md R31). -/
def Display.packedByte (d : Display) (k : Fin 256) : Byte :=
  (d[k.val / 8]'(by omega)).extractLsb' (56 - 8 * (k.val % 8)) 8

/-- The 256-byte packed image of the display, the display output of spec/60_exceptions.md R223. -/
def State.packedDisplay (s : State) : List Byte := (List.finRange 256).map s.display.packedByte

/-! ## Free values -/

/-- `RandomByte()` (spec/60_exceptions.md R224): the byte of the next draw. -/
def State.randomByte (s : State) : Byte := Config.randomByte s.draws

/-- One byte has been drawn. -/
def State.countDraw (s : State) : State := { s with draws := s.draws + 1 }

/-- After a Step `cycles` is any value (spec/93 row 10; spec/10_state.md R39). Log entry 5. -/
def State.settleCycles (s : State) : State :=
  { s with cycles := Config.cyclesAfter s.cycleDraws, cycleDraws := s.cycleDraws + 1 }

/-! ## The error outcome and the way out of it -/

/-- `raise UnrecognizedOpcode` (spec/60_exceptions.md R211): only `cpu_state` is written. No pc is saved, no vector is
taken, no mode changes (R217); `opcode` was written by the fetch. -/
def State.raiseUnrecognizedOpcode (s : State) : State := s.setCpu .errorOpcode

/-- `Reset` (spec/70_reset_and_hazards.md R241). No instruction returns from the error (R218): this command, `Init` and
a host write of `cpu_state` are the only ways out. -/
def State.doReset (s : State) : State :=
  { s with
    i := 0
    sp := 0
    pc := Config.entry
    opcode := 0
    cpuState := .executing
    v := Vector.replicate 16 0
    stack := Vector.replicate 16 0
    keypad := 0
    fxoaState := 0
    delayTimer := 0
    soundTimer := 0
    cycles := 0
    display := if s.quirk .clearScreenOnReset then Display.clear else s.display }

end Sys2Proof.Machine
end

