-- ==== Sys2Proof/Machine/Flags.lean ====
section
/-!
DEFINITION. Every flag computation of spec/41_register_alu.md, and the order in which a result and a flag are written
(R120). The only flag is the value left in VF (spec/10_state.md R24).
-/

namespace Sys2Proof.Machine

/-- A flag as a byte. -/
def flagByte (b : Bool) : Byte := if b then 1 else 0

/-- The carry of 8XY4: 1 when the exact sum is over 255 (R127). -/
def carryFlag (a b : Byte) : Byte := flagByte (decide (a.toNat + b.toNat > 255))

/-- No borrow in `a - b`: 1 when `a ≥ b`, equality included (R128, R130). -/
def noBorrowFlag (a b : Byte) : Byte := flagByte (decide (a.toNat ≥ b.toNat))

/-- The bit that 8XY6 shifts out: bit 0 (R129). -/
def shiftedOutRight (src : Byte) : Byte := src &&& 1

/-- The bit that 8XYE shifts out: bit 7 (R131). -/
def shiftedOutLeft (src : Byte) : Byte := (src >>> 7) &&& 1

/-- `VF <- 0` when quirk ZERO_VF is set: the last write of 8XY1, 8XY2 and 8XY3 (R124 to R126). -/
def State.zeroVfQuirk (s : State) : State := if s.quirk .zeroVf then s.setReg vf 0 else s

/-- The result, then the flag: the order of 8XY4 (R127), and of the others under `FlagLast` (R120). -/
def State.writeResultThenFlag (s : State) (x : Reg) (result flag : Byte) : State :=
  (s.setReg x result).setReg vf flag

/-- The flag, then the result: the order of 8XY5, 8XY6, 8XY7 and 8XYE under `TableOrder` (R120). -/
def State.writeFlagThenResult (s : State) (x : Reg) (result flag : Byte) : State :=
  (s.setReg vf flag).setReg x result

/-- The two writes of 8XY5, 8XY6, 8XY7 and 8XYE, in the order `VF_ORDER` gives (R120). -/
def State.writeByVfOrder (s : State) (x : Reg) (result flag : Byte) : State :=
  match s.params.vfOrder with
  | .tableOrder => s.writeFlagThenResult x result flag
  | .flagLast => s.writeResultThenFlag x result flag

end Sys2Proof.Machine
end

