-- ==== Sys2Proof/Machine/Operands.lean ====
section
/-!
DEFINITION. Every operand form the spec gives: index-register addressing, the jump and shift sources that a quirk
selects, decimal digits, key indices, and the display coordinates of a sprite bit.
-/

namespace Sys2Proof.Machine

/-- The one data addressing mode: `I + k`, reduced mod 4096 at the access (spec/42_index_memory.md R156). -/
def State.indexed (s : State) (k : Nat) : Nat := s.i.toNat + k

/-- The post-increment of FX55 and FX65: `I <- (I + x + 1) & 0xFFF` under INCREMENT_I, else `I` is unchanged
(R154, R155). -/
def State.bumpIndex (s : State) (x : Reg) : State :=
  if s.quirk .incrementI then s.setI (s.i + x.setWidth 16 + 1) else s

/-- The register BNNN adds: `V[x]` under JUMP_VX, else `V[0]` (spec/40_control_flow.md R108). -/
def State.jumpOffset (s : State) (x : Reg) : Byte :=
  if s.quirk .jumpVx then s.reg x else s.reg 0

/-- The source of 8XY6 and 8XYE: `V[x]` under SHIFT_X_REGISTER, else `V[y]` (spec/41_register_alu.md R129, R131). -/
def State.shiftSource (s : State) (x y : Reg) : Byte :=
  if s.quirk .shiftXRegister then s.reg x else s.reg y

/-- The glyph address of FX29: `V[x] * 5`, exact (R152). -/
def glyphAddress (b : Byte) : Word := BitVec.ofNat 16 (b.toNat * 5)

/-- The hundreds digit of FX33: `v div 100` (R153). -/
def bcdHundreds (b : Byte) : Byte := BitVec.ofNat 8 (b.toNat / 100)

/-- The tens digit of FX33: `(v div 10) mod 10` (R153). -/
def bcdTens (b : Byte) : Byte := BitVec.ofNat 8 (b.toNat / 10 % 10)

/-- The ones digit of FX33: `v mod 10` (R153). -/
def bcdOnes (b : Byte) : Byte := BitVec.ofNat 8 (b.toNat % 10)

/-- `key(k)`: bit k of `keypad` (spec/44_keypad_timer_regs.md R190). -/
def State.keyDown (s : State) (k : Nat) : Bool := s.keypad.getLsbD k

/-- FX0A's marks after "for every key currently down, mark it 'seen down'" (R193). -/
def State.markedKeys (s : State) : Word := s.fxoaState ||| s.keypad

/-- The key FX0A reports: the lowest marked key that is up (R193). -/
def State.releasedKey (s : State) : Option Nat :=
  (List.range 16).find? fun k => s.markedKeys.getLsbD k && !s.keyDown k

/-- Where a sprite bit falls (spec/43_display_blitter.md R173). -/
inductive Target where
  | dropped
  | pixel (px : Fin 64) (py : Fin 32)
deriving DecidableEq, Repr

/-- `Target(cx, cy, c, r)` (R173): every coordinate wraps, or, under DISPLAY_CLIPPING, the anchor wraps once and what
then falls outside the bitmap is dropped. -/
def target (clip : Bool) (cx cy : Byte) (c r : Nat) : Target :=
  if clip then
    if h : cx.toNat % 64 + c < 64 ∧ cy.toNat % 32 + r < 32 then
      .pixel ⟨cx.toNat % 64 + c, h.1⟩ ⟨cy.toNat % 32 + r, h.2⟩
    else .dropped
  else .pixel ⟨(cx.toNat + c) % 64, Nat.mod_lt _ (by decide)⟩ ⟨(cy.toNat + r) % 32, Nat.mod_lt _ (by decide)⟩

/-- Bit `c` of a sprite row, c = 0 being bit 7 (R172). -/
def spriteBit (b : Byte) (c : Nat) : Bool := b.getLsbD (7 - c)

end Sys2Proof.Machine
end

