-- ==== Sys2Proof/Machine/Blitter.lean ====
section
/-!
DEFINITION. The display instructions 00E0 and DXYN (spec/43_display_blitter.md). The blitter is the pixel-by-pixel scan
of R172, on a bitmap and the collision it has met so far.
-/

namespace Sys2Proof.Machine

/-- 00E0 (R171): `draw_display` is set also when nothing changes (D10). -/
def execCls (s : State) : Host.Outcome State Fault Refusal :=
  .next ((s.setDisplay Display.clear).setDrawDisplay 1).advance

/-- One sprite bit of the scan (R172): a set bit that is not dropped collides when its pixel is set, and toggles it. -/
def blitBit (clip : Bool) (cx cy b : Byte) (r : Nat) (acc : Display × Bool) (c : Nat) : Display × Bool :=
  if spriteBit b c then
    match target clip cx cy c r with
    | .dropped => acc
    | .pixel px py => (acc.1.togglePix px py, acc.2 || acc.1.pix px py)
  else acc

/-- One sprite row, columns 0 to 7 (R172). -/
def blitRow (clip : Bool) (cx cy b : Byte) (r : Nat) (acc : Display × Bool) : Display × Bool :=
  (List.range 8).foldl (blitBit clip cx cy b r) acc

/-- Rows 0 to `n` - 1 of the sprite at `I`, anchored at (`cx`, `cy`); the collision starts at 0 (R172). -/
def State.blit (s : State) (cx cy : Byte) (n : Nat) : Display × Bool :=
  (List.range n).foldl
    (fun acc r => blitRow (s.quirk .displayClipping) cx cy (s.memRead (s.indexed r)) r acc) (s.display, false)

/-- DXYN (R172): both coordinates are read before VF is written (R177); VF is the collision; `draw_display` is set
whatever was drawn (D10). -/
def execDrw (x y : Reg) (n : Nibble) (s : State) : Host.Outcome State Fault Refusal :=
  let drawn := s.blit (s.reg x) (s.reg y) n.toNat
  .next (((s.setDisplay drawn.1).setReg vf (flagByte drawn.2)).setDrawDisplay 1).advance

end Sys2Proof.Machine
end

