-- ==== Sys2Proof/Machine/ControlFlow.lean ====
section
/-!
DEFINITION. Control transfer and conditional skips: 00EE, 1NNN, 2NNN, 3XNN, 4XNN, 5XY0, 9XY0, BNNN
(spec/40_control_flow.md).
-/

namespace Sys2Proof.Machine

/-- 00EE (R101): the popped address plus 2, since 2NNN stores its own address (C4). Undefined when the decrement would
leave 0..15, or `sp` already lies outside. -/
def execRet (s : State) : Host.Outcome State Fault Refusal :=
  if s.sp.toNat = 0 ∨ 15 < s.sp.toNat then .fault .stackUnderflow
  else
    let ret := s.stackSlot s.sp
    .next ((s.setSp (s.sp - 1)).setPc (ret + 2))

/-- 1NNN (R102). -/
def execJp (nnn : Addr) (s : State) : Host.Outcome State Fault Refusal :=
  .next (s.setPc (nnn.setWidth 16))

/-- 2NNN (R103): `sp` is incremented first, and the slot receives the address of this 2NNN. Undefined when the
increment would leave 0..15. -/
def execCall (nnn : Addr) (s : State) : Host.Outcome State Fault Refusal :=
  if 15 ≤ s.sp.toNat then .fault .stackOverflow
  else .next (((s.setSp (s.sp + 1)).setStackSlot (s.sp + 1) s.pc).setPc (nnn.setWidth 16))

/-- 3XNN (R104). -/
def execSeVxNn (x : Reg) (nn : Byte) (s : State) : Host.Outcome State Fault Refusal :=
  .next (s.skipIf (s.reg x == nn))

/-- 4XNN (R105). -/
def execSneVxNn (x : Reg) (nn : Byte) (s : State) : Host.Outcome State Fault Refusal :=
  .next (s.skipIf (s.reg x != nn))

/-- 5XY0 (R106). -/
def execSeVxVy (x y : Reg) (s : State) : Host.Outcome State Fault Refusal :=
  .next (s.skipIf (s.reg x == s.reg y))

/-- 9XY0 (R107). -/
def execSneVxVy (x y : Reg) (s : State) : Host.Outcome State Fault Refusal :=
  .next (s.skipIf (s.reg x != s.reg y))

/-- BNNN (R108). -/
def execJpV0 (x : Reg) (nnn : Addr) (s : State) : Host.Outcome State Fault Refusal :=
  .next (s.setPc (nnn.setWidth 16 + (s.jumpOffset x).setWidth 16))

end Sys2Proof.Machine
end

