-- ==== Sys2Proof/Machine/IndexMemory.lean ====
section
/-!
DEFINITION. Index register and memory transfers: ANNN, FX1E, FX29, FX33, FX55, FX65 (spec/42_index_memory.md). None
writes a flag.
-/

namespace Sys2Proof.Machine

/-- ANNN (R150). -/
def execLdI (nnn : Addr) (s : State) : Host.Outcome State Fault Refusal :=
  .next (s.setI (nnn.setWidth 16)).advance

/-- FX1E (R151). -/
def execAddIVx (x : Reg) (s : State) : Host.Outcome State Fault Refusal :=
  .next (s.setI (s.i + (s.reg x).setWidth 16)).advance

/-- FX29 (R152). -/
def execLdFVx (x : Reg) (s : State) : Host.Outcome State Fault Refusal :=
  .next (s.setI (glyphAddress (s.reg x))).advance

/-- FX33 (R153). -/
def execLdBVx (x : Reg) (s : State) : Host.Outcome State Fault Refusal :=
  let b := s.reg x
  let s1 := s.memWrite (s.indexed 0) (bcdHundreds b)
  let s2 := s1.memWrite (s.indexed 1) (bcdTens b)
  let s3 := s2.memWrite (s.indexed 2) (bcdOnes b)
  .next s3.advance

/-- One store of FX55: `MemWrite(I + k, 1, V[k])` (R154). -/
def State.storeReg (s : State) (k : Nat) : State := s.memWrite (s.indexed k) (s.reg (BitVec.ofNat 4 k))

/-- FX55 (R154): `V[0]..V[x]`, ascending. -/
def execLdMiVx (x : Reg) (s : State) : Host.Outcome State Fault Refusal :=
  .next (((List.range (x.toNat + 1)).foldl State.storeReg s).bumpIndex x).advance

/-- One load of FX65: `V[k] <- MemRead(I + k, 1)` (R155). -/
def State.loadReg (s : State) (k : Nat) : State := s.setReg (BitVec.ofNat 4 k) (s.memRead (s.indexed k))

/-- FX65 (R155): `V[0]..V[x]`, ascending. -/
def execLdVxMi (x : Reg) (s : State) : Host.Outcome State Fault Refusal :=
  .next (((List.range (x.toNat + 1)).foldl State.loadReg s).bumpIndex x).advance

end Sys2Proof.Machine
end

