-- ==== Sys2Proof/Machine/KeypadTimer.lean ====
section
/-!
DEFINITION. Keypad instructions and timer registers: EX9E, EXA1, FX0A, FX07, FX15, FX18
(spec/44_keypad_timer_regs.md).
-/

namespace Sys2Proof.Machine

/-- EX9E (R191). Undefined when `V[x]` names no key (R190). -/
def execSkp (x : Reg) (s : State) : Host.Outcome State Fault Refusal :=
  if 15 < (s.reg x).toNat then .fault .keyIndex
  else .next (s.skipIf (s.keyDown (s.reg x).toNat))

/-- EXA1 (R192). Undefined when `V[x]` names no key (R190). -/
def execSknp (x : Reg) (s : State) : Host.Outcome State Fault Refusal :=
  if 15 < (s.reg x).toNat then .fault .keyIndex
  else .next (s.skipIf (!s.keyDown (s.reg x).toNat))

/-- FX0A (R193), one Step of it: mark the keys that are down; if a marked key is up, report the lowest, clear the marks
and advance; else `pc` stays on the FX0A. -/
def execLdVxK (x : Reg) (s : State) : Host.Outcome State Fault Refusal :=
  match s.releasedKey with
  | some k => .next ((s.setReg x (BitVec.ofNat 8 k)).setFxoa 0).advance
  | none => .next (s.setFxoa s.markedKeys)

/-- FX07 (R195). -/
def execLdVxDt (x : Reg) (s : State) : Host.Outcome State Fault Refusal :=
  .next (s.setReg x s.delayTimer).advance

/-- FX15 (R196). -/
def execLdDtVx (x : Reg) (s : State) : Host.Outcome State Fault Refusal :=
  .next (s.setDelay (s.reg x)).advance

/-- FX18 (R197). -/
def execLdStVx (x : Reg) (s : State) : Host.Outcome State Fault Refusal :=
  .next (s.setSound (s.reg x)).advance

end Sys2Proof.Machine
end

