-- ==== Sys2Proof/Machine/RegisterAlu.lean ====
section
/-!
DEFINITION. Register-ALU dispatch: 6XNN, 7XNN, the nine 8XYN forms and CXNN (spec/41_register_alu.md). Both sources are
read before any register is written (R120).
-/

namespace Sys2Proof.Machine

/-- 6XNN (R121). -/
def execLdVxNn (x : Reg) (nn : Byte) (s : State) : Host.Outcome State Fault Refusal :=
  .next (s.setReg x nn).advance

/-- 7XNN (R122): no flag. -/
def execAddVxNn (x : Reg) (nn : Byte) (s : State) : Host.Outcome State Fault Refusal :=
  .next (s.setReg x (s.reg x + nn)).advance

/-- 8XY0 (R123): ZERO_VF does not apply. -/
def execLdVxVy (x y : Reg) (s : State) : Host.Outcome State Fault Refusal :=
  .next (s.setReg x (s.reg y)).advance

/-- 8XY1 (R124). -/
def execOrVxVy (x y : Reg) (s : State) : Host.Outcome State Fault Refusal :=
  .next (s.setReg x (s.reg x ||| s.reg y)).zeroVfQuirk.advance

/-- 8XY2 (R125). -/
def execAndVxVy (x y : Reg) (s : State) : Host.Outcome State Fault Refusal :=
  .next (s.setReg x (s.reg x &&& s.reg y)).zeroVfQuirk.advance

/-- 8XY3 (R126). -/
def execXorVxVy (x y : Reg) (s : State) : Host.Outcome State Fault Refusal :=
  .next (s.setReg x (s.reg x ^^^ s.reg y)).zeroVfQuirk.advance

/-- 8XY4 (R127): the sum, then the carry. -/
def execAddVxVy (x y : Reg) (s : State) : Host.Outcome State Fault Refusal :=
  let a := s.reg x
  let b := s.reg y
  .next (s.writeResultThenFlag x (a + b) (carryFlag a b)).advance

/-- 8XY5 (R128). -/
def execSub (x y : Reg) (s : State) : Host.Outcome State Fault Refusal :=
  let a := s.reg x
  let b := s.reg y
  .next (s.writeByVfOrder x (a - b) (noBorrowFlag a b)).advance

/-- 8XY6 (R129). -/
def execShr (x y : Reg) (s : State) : Host.Outcome State Fault Refusal :=
  let src := s.shiftSource x y
  .next (s.writeByVfOrder x (src >>> 1) (shiftedOutRight src)).advance

/-- 8XY7 (R130). -/
def execSubn (x y : Reg) (s : State) : Host.Outcome State Fault Refusal :=
  let a := s.reg x
  let b := s.reg y
  .next (s.writeByVfOrder x (b - a) (noBorrowFlag b a)).advance

/-- 8XYE (R131). -/
def execShl (x y : Reg) (s : State) : Host.Outcome State Fault Refusal :=
  let src := s.shiftSource x y
  .next (s.writeByVfOrder x (src <<< 1) (shiftedOutLeft src)).advance

/-- CXNN (R132): exactly one byte is drawn, whatever NN is (D24). -/
def execRnd (x : Reg) (nn : Byte) (s : State) : Host.Outcome State Fault Refusal :=
  .next (s.countDraw.setReg x (s.randomByte &&& nn)).advance

end Sys2Proof.Machine
end

