-- ==== Sys2Proof/Machine/Engine.lean ====
section
/-!
DEFINITION. The execution engine: the `Step` command of spec/60_exceptions.md R212, whose checks come in the order of
R215.
-/

namespace Sys2Proof.Machine

/-- Whether `SYS_POLICY` gives a word no meaning: under `Refuse`, a group-0 word that is no instruction (R212, R232). -/
def State.refusesWord (s : State) (w : Word) : Bool :=
  decide (fieldT w = 0) && decide (s.params.sysPolicy = .refuse)

/-- What a Step does once the word is fetched and `opcode` written (R212). `cycles` is any value afterwards (log
entry 5). -/
def runDecoded (w : Word) (d : Decoded) (s : State) : Host.Outcome State Fault Refusal :=
  match d with
  | .unrecognized _ =>
    if s.refusesWord w then .refused (.unlistedHandler w)
    else .next s.raiseUnrecognizedOpcode.settleCycles
  | .instr i =>
    match exec i s with
    | .next t => .next t.settleCycles
    | .fault f => .fault f
    | .refused r => .refused r

/-- The state once the fetch has written `opcode` (R51). -/
def State.fetched (s : State) : State := s.setOpcode s.fetch16

/-- The word `s` fetches, decoded from its two bytes (R51, R74). -/
def State.fetchDecode (s : State) : Decoded := decode s.fetch16

/-- One `Step` (R212). -/
def engineStep (s : State) : Host.Outcome State Fault Refusal :=
  if s.cpuState ≠ .executing then .next s
  else if 0xFFF < s.pc.toNat then .fault .pcRange
  else runDecoded s.fetch16 s.fetchDecode s.fetched

/-- The state a Step that faults or refuses leaves behind: the fetch, when it happened, wrote `opcode`; nothing else is
written (R213, R215, R232; spec/95_test_vectors.md CF5, EX4, EX11). -/
def State.stopped (s : State) : State := if 0xFFF < s.pc.toNat then s else s.fetched

/-- The two bytes of an opcode-table word put where the next Step fetches (spec/20_memory.md R51, R52). A Step fetches
only when `cpu_state` is EXECUTING and `pc` is legal (R212), so these are made so; at State.reset they already are. -/
def placeWord (s : State) (w : Word) : State :=
  let ready := { s with cpuState := .executing, pc := s.pc &&& 0x0FFF#16 }
  (ready.memWrite ready.pc.toNat (bytesOfWord w).1).memWrite (ready.pc.toNat + 1) (bytesOfWord w).2

end Sys2Proof.Machine
end

