-- ==== Sys2Proof/Machine/Step.lean ====
section
/-! DEFINITION. The step of the machine, and an opcode-table word placed where it fetches next. -/

namespace Sys2Proof.Machine

/-- One step is one `Step` command (spec/60_exceptions.md R212). The other commands are in Machine/Commands.lean. -/
def step (s : State) : Host.Outcome State Fault Refusal := engineStep s

/-- `s` with the instruction of the word `w`, whose bits from `nbits` up are 0, stored where `step` fetches next. -/
def State.withFetchWord (s : State) (nbits w : Nat) : State := placeWord s (BitVec.ofNat 16 (w % 2 ^ nbits))

end Sys2Proof.Machine
end

