-- ==== Sys2Proof/Machine/Commands.lean ====
section
/-!
DEFINITION. The commands of the block other than Step, and a run as a sequence of commands the host issues
(spec/00_scope.md R6, R7; spec/60_exceptions.md R213, R220 to R225, R232; spec/70_reset_and_hazards.md R240 to R248).
-/

namespace Sys2Proof.Machine

/-! ## The commands on the state -/

/-- `Init` (R240): `quirks <- 0`, then `Reset`, every byte of `ram` and every pixel zeroed, `FONT` copied to
0x000..0x04F, `draw_display <- 0`. In canonical form that `ram` lists nothing. -/
def State.doInit (s : State) : State :=
  { ({ s with quirks := 0 } : State).doReset with ram := [], display := Display.clear, drawDisplay := 0 }

/-- `ZeroRam` (R242): every byte of `ram`, the font too. -/
def State.zeroRam (s : State) : State := { s with ram := Memory.zeros s.params.font }

/-- `ZeroProgram` (R243): the bytes from 0x200 up. None of them is a font byte, so a byte that is 0 is not listed. -/
def State.zeroProgram (s : State) : State :=
  { s with ram := s.ram.filter fun c => decide (c.1 < Config.entry.toNat) }

/-- `ZeroDisplay` (R244): every pixel; `draw_display` is not written. -/
def State.zeroDisplay (s : State) : State := s.setDisplay Display.clear

/-- A countdown that stays at 0 (R220). -/
def countdown (b : Byte) : Byte := if b = 0 then 0 else b - 1

/-- `Tick` on the state (R220): it depends on nothing but the two timers. -/
def State.tick (s : State) : State := (s.setDelay (countdown s.delayTimer)).setSound (countdown s.soundTimer)

/-- Whether a Tick signals the sound collaborator: `sound_timer` was nonzero (R220, R225). -/
def State.beeps (s : State) : Bool := s.soundTimer != 0

/-! ## Host writes between commands (spec/10_state.md R43) -/

/-- One element, and the value of its width that the host writes to it. -/
inductive HostWrite where
  | v (x : Reg) (b : Byte)
  | i (w : Word)
  | pc (w : Word)
  | sp (w : Word)
  | stack (k : Nibble) (w : Word)
  | opcode (w : Word)
  | keypad (w : Word)
  | fxoaState (w : Word)
  | delayTimer (b : Byte)
  | soundTimer (b : Byte)
  | cpuState (c : CpuState)
  | cycles (n : Nat)
  | quirks (b : Byte)
  | ram (a : Addr) (b : Byte)
  | pixel (px : Fin 64) (py : Fin 32) (on : Bool)
  | drawDisplay (b : Byte)
deriving DecidableEq, Repr

/-- A host write: the element takes the value as given, unmasked (R43). -/
def State.hostWrite (s : State) : HostWrite → State
  | .v x b => s.setReg x b
  | .i w => { s with i := w }
  | .pc w => { s with pc := w }
  | .sp w => s.setSp w
  | .stack k w => s.setStackSlot (k.setWidth 16) w
  | .opcode w => s.setOpcode w
  | .keypad w => { s with keypad := w }
  | .fxoaState w => s.setFxoa w
  | .delayTimer b => s.setDelay b
  | .soundTimer b => s.setSound b
  | .cpuState c => s.setCpu c
  | .cycles n => { s with cycles := n }
  | .quirks b => { s with quirks := b }
  | .ram a b => s.memWrite a.toNat b
  | .pixel px py on => s.setDisplay (if on then s.display.setPix px py else s.display.clearPix px py)
  | .drawDisplay b => s.setDrawDisplay b

/-! ## A run -/

/-- The commands of R6. -/
inductive Command where
  | step
  | tick
  | init
  | reset
  | zeroRam
  | zeroProgram
  | zeroDisplay
  | write (w : HostWrite)
deriving DecidableEq, Repr

/-- The mark of an undefined outcome (R213) or of a refused one (R232). It is the model's, not architectural state. -/
inductive Mark where
  | fault (f : Fault)
  | refused (r : Refusal)
deriving DecidableEq, Repr

/-- What the block sends out in a run: the payload-free Beep (R225). -/
inductive Event where
  | beep
deriving DecidableEq, Repr

/-- A run so far: the state, the mark if one is recorded, and the output trace, oldest first. -/
structure Session where
  machine : State
  mark : Option Mark
  trace : List Event
deriving DecidableEq, Repr

/-- The Step command in a run: a fault or a refusal is recorded as the mark (R213, R232). -/
def Session.step (z : Session) : Session :=
  match Sys2Proof.Machine.step z.machine with
  | .next t => { z with machine := t }
  | .fault f => { z with machine := z.machine.stopped, mark := some (.fault f) }
  | .refused r => { z with machine := z.machine.stopped, mark := some (.refused r) }

/-- The Tick command in a run: the Beep is appended to the trace (R225). -/
def Session.tick (z : Session) : Session :=
  { z with machine := z.machine.tick, trace := z.trace ++ (if z.machine.beeps then [Event.beep] else []) }

/-- One command. Once a mark is recorded every command leaves everything unchanged (R213, R232). -/
def Session.issue (z : Session) (c : Command) : Session :=
  if z.mark.isSome then z
  else
    match c with
    | .step => z.step
    | .tick => z.tick
    | .init => { z with machine := z.machine.doInit }
    | .reset => { z with machine := z.machine.doReset }
    | .zeroRam => { z with machine := z.machine.zeroRam }
    | .zeroProgram => { z with machine := z.machine.zeroProgram }
    | .zeroDisplay => { z with machine := z.machine.zeroDisplay }
    | .write w => { z with machine := z.machine.hostWrite w }

/-- The host's command sequence, in order. -/
def Session.issueAll (z : Session) (cs : List Command) : Session := cs.foldl Session.issue z

/-- A run that has just started, on a given state. -/
def Session.start (s : State) : Session := { machine := s, mark := none, trace := [] }

/-! ## Boot (spec/70_reset_and_hazards.md R248) -/

/-- The host writes that load an image from 0x200, byte by byte; an image that does not fit has no move in the model
(R248; spec/93 row 22). -/
def loadCommands (image : List Byte) : Option (List Command) :=
  if image.length ≤ Config.ramSize - Config.entry.toNat then
    some (image.zipIdx.map fun p => Command.write (.ram (BitVec.ofNat 12 (Config.entry.toNat + p.2)) p.1))
  else none

/-- The start-up sequence: `Init`, then `quirks`, then the image (R248, steps 1 to 3). -/
def bootCommands (quirks : Byte) (image : List Byte) : Option (List Command) :=
  (loadCommands image).map fun load => Command.init :: Command.write (.quirks quirks) :: load

/-- The launch of a program: a run after the start-up sequence (R248). -/
def launch (s : State) (quirks : Byte) (image : List Byte) : Option Session :=
  (bootCommands quirks image).map (Session.start s).issueAll

/-- The commands of a restart: `Reset` alone, or followed by `ZeroProgram` (R246). -/
def restartCommands (eraseProgram : Bool) : List Command :=
  if eraseProgram then [.reset, .zeroProgram] else [.reset]

end Sys2Proof.Machine
end

