-- ==== Sys2Proof/Safety.lean ====
section
/-!
DEFINITION. What counts as a legal state and as the end of a run, and how claims say what is left unchanged.
-/

namespace Sys2Proof.Machine

/-- The legal-value invariants of spec/10_state.md R42, with the canonical form of `ram`. `cpu_state` is one of its
three values by its type. -/
structure State.Legal (s : State) : Prop where
  ramCanonical : s.memWf
  pcInRange : s.pc.toNat ≤ 0xFFF
  spInRange : s.sp.toNat ≤ 15
  indexInRange : s.i.toNat ≤ 0xFFF
  slotsInRange : ∀ k : Fin 16, s.stack[k].toNat ≤ 0xFFF

/-- The elements of State, by name, for frames. -/
inductive Element where
  | v | i | pc | sp | stack | opcode | keypad | fxoaState | delayTimer | soundTimer | cpuState | cycles | quirks
  | ram | display | drawDisplay | params | draws | cycleDraws
deriving DecidableEq, Repr

/-- `t` holds in element `e` what `s` holds. For `ram`: every byte reads the same. -/
def Element.same (s t : State) : Element → Prop
  | .v => ∀ x, t.reg x = s.reg x
  | .i => t.i = s.i
  | .pc => t.pc = s.pc
  | .sp => t.sp = s.sp
  | .stack => t.stack = s.stack
  | .opcode => t.opcode = s.opcode
  | .keypad => t.keypad = s.keypad
  | .fxoaState => t.fxoaState = s.fxoaState
  | .delayTimer => t.delayTimer = s.delayTimer
  | .soundTimer => t.soundTimer = s.soundTimer
  | .cpuState => t.cpuState = s.cpuState
  | .cycles => t.cycles = s.cycles
  | .quirks => t.quirks = s.quirks
  | .ram => ∀ a, t.memRead a = s.memRead a
  | .display => t.display = s.display
  | .drawDisplay => t.drawDisplay = s.drawDisplay
  | .params => t.params = s.params
  | .draws => t.draws = s.draws
  | .cycleDraws => t.cycleDraws = s.cycleDraws

/-- Every element but those of `es` is unchanged from `s` to `t`. -/
def UnchangedBut (es : List Element) (s t : State) : Prop := ∀ e : Element, e ∉ es → e.same s t

/-- Every register but those of `xs` is unchanged from `s` to `t`. -/
def RegsUnchangedBut (xs : List Reg) (s t : State) : Prop := ∀ r : Reg, r ∉ xs → t.reg r = s.reg r

/-- Every byte of `ram` outside the addresses of `as` is unchanged from `s` to `t` (addresses taken mod 4096). -/
def RamUnchangedBut (as : List Nat) (s t : State) : Prop :=
  ∀ a : Nat, (∀ b ∈ as, a % Config.ramSize ≠ b % Config.ramSize) → t.memRead a = s.memRead a

/-- `t` is where the normal advance leads: `pc + 2`, masked to 12 bits (spec/40_control_flow.md R100, R55). -/
def Advanced (s t : State) : Prop := t.pc.toNat = (s.pc.toNat + 2) % Config.ramSize

/-- A run has ended at this state (spec/60_exceptions.md R230): no mark, and (a) `cpu_state` is not EXECUTING or (b) the
word at `pc` is a jump to itself. Two points that R230 leaves open are the model's: (b) is taken at a legal `pc` only
(DESIGN CHOICE, safe, log entry 15), and (a) holds whatever word is at `pc`, an FX0A that has not completed too (DESIGN
CHOICE, unsafe, log entry 16). -/
def Session.Ended (z : Session) : Prop :=
  z.mark = none ∧
    (z.machine.cpuState ≠ .executing ∨
      (z.machine.pc.toNat ≤ 0xFFF ∧ z.machine.fetch16 = 0x1000#16 ||| z.machine.pc))

/-- A run is waiting in FX0A (spec/60_exceptions.md R231): it executes, and the FX0A at `pc` would not complete on the
keys as they are. A run in ERROR_OPCODE or HALTED is not waiting, whatever is at `pc` (DESIGN CHOICE, unsafe, log
entry 16). -/
def Session.Waiting (z : Session) : Prop :=
  z.mark = none ∧ z.machine.cpuState = .executing ∧ z.machine.pc.toNat ≤ 0xFFF ∧
    (∃ x, z.machine.fetchDecode = .instr (.ldVxK x)) ∧ z.machine.releasedKey = none

/-! ## Vocabulary of the claims -/

/-- Every word with `w & mask = match` is the row's instruction, its operands the fields of `w` (spec/30_encoding.md
R71, R76). -/
def DecodesRow (mask rowValue : Word) (build : Word → Instr) : Prop :=
  ∀ w : Word, w &&& mask = rowValue → decode w = .instr (build w)

/-- Pixel (px, py) is touched by the `n`-row sprite at `I` anchored at (`cx`, `cy`): some set bit of the sprite maps to
it and is not dropped (spec/43_display_blitter.md R174). -/
def Touched (s : State) (cx cy : Byte) (n : Nat) (px : Fin 64) (py : Fin 32) : Prop :=
  ∃ r, r < n ∧ ∃ c, c < 8 ∧ spriteBit (s.memRead (s.indexed r)) c = true ∧
    target (s.quirk .displayClipping) cx cy c r = .pixel px py

/-- The mask `m` that a sprite byte applies to its display row (spec/43_display_blitter.md R180). -/
def spriteRowMask (clip : Bool) (cx b : Byte) : BitVec 64 :=
  if clip then (b.setWidth 64 <<< 56) >>> (cx.toNat % 64)
  else (b.setWidth 64 <<< 56).rotateRight (cx.toNat % 64)

/-- The display row of sprite row `r`, if it is not dropped (R173, R180). -/
def spriteRowAt (clip : Bool) (cy : Byte) (r : Nat) : Option Nat :=
  if clip then (if cy.toNat % 32 + r < 32 then some (cy.toNat % 32 + r) else none)
  else some ((cy.toNat + r) % 32)

/-- The elements an instruction may write when it completes, from its rule's pseudocode. -/
def writtenBy : Instr → List Element
  | .cls => [.display, .drawDisplay, .pc]
  | .ret => [.sp, .pc]
  | .call _ => [.sp, .stack, .pc]
  | .jp _ | .jpV0 _ _ | .seVxNn _ _ | .sneVxNn _ _ | .seVxVy _ _ | .sneVxVy _ _ | .skp _ | .sknp _ => [.pc]
  | .ldVxNn _ _ | .addVxNn _ _ | .ldVxVy _ _ | .orVxVy _ _ | .andVxVy _ _ | .xorVxVy _ _ | .addVxVy _ _ | .sub _ _
  | .shr _ _ | .subn _ _ | .shl _ _ | .ldVxDt _ => [.v, .pc]
  | .ldI _ | .addIVx _ | .ldFVx _ => [.i, .pc]
  | .rnd _ _ => [.v, .draws, .pc]
  | .drw _ _ _ => [.display, .v, .drawDisplay, .pc]
  | .ldVxK _ => [.v, .fxoaState, .pc]
  | .ldDtVx _ => [.delayTimer, .pc]
  | .ldStVx _ => [.soundTimer, .pc]
  | .ldBVx _ => [.ram, .pc]
  | .ldMiVx _ => [.ram, .i, .pc]
  | .ldVxMi _ => [.v, .i, .pc]

/-- Key `k` ends an FX0A: it is marked, counting the keys that are down now, and it is up
(spec/44_keypad_timer_regs.md R193). -/
def KeyQualifies (s : State) (k : Nat) : Prop :=
  (s.fxoaState ||| s.keypad).getLsbD k = true ∧ s.keypad.getLsbD k = false

/-- How many Ticks of a command sequence find `sound_timer` nonzero, in a run that stops at its first mark. -/
def beepingTicks : Session → List Command → Nat
  | _, [] => 0
  | z, c :: cs =>
    (if z.mark = none ∧ c = .tick ∧ z.machine.soundTimer ≠ 0 then 1 else 0) + beepingTicks (z.issue c) cs

/-- The one element a host write names (spec/10_state.md R43). -/
def HostWrite.element : HostWrite → Element
  | .v _ _ => .v
  | .i _ => .i
  | .pc _ => .pc
  | .sp _ => .sp
  | .stack _ _ => .stack
  | .opcode _ => .opcode
  | .keypad _ => .keypad
  | .fxoaState _ => .fxoaState
  | .delayTimer _ => .delayTimer
  | .soundTimer _ => .soundTimer
  | .cpuState _ => .cpuState
  | .cycles _ => .cycles
  | .quirks _ => .quirks
  | .ram _ _ => .ram
  | .pixel _ _ _ => .display
  | .drawDisplay _ => .drawDisplay

end Sys2Proof.Machine
end

