-- ==== Sys2Proof/Certificates/Slice0/Obligations.lean ====
section
/-!
DEFINITION. The statements for the provers, each from the numbered rules of spec/. A statement about one instruction
says how its words decode (the Encoding line of its rule), that it completes, the values it writes, and that nothing
else changes.
-/

open Sys2Proof Sys2Proof.Machine

/-! ## Decoding and encoding (spec/30_encoding.md) -/

/-- A few words written out from the spec's encodings decode to what they stand for (R76; the words are those of
spec/95_test_vectors.md). -/
def Obligations.SampleWordsDecode : Prop :=
  decode 0x2300#16 = .instr (.call 0x300#12) ∧
  decode 0x6A42#16 = .instr (.ldVxNn 0xA#4 0x42#8) ∧
  decode 0x812E#16 = .instr (.shl 0x1#4 0x2#4) ∧
  decode 0xB2F0#16 = .instr (.jpV0 0x2#4 0x2F0#12) ∧
  decode 0xD0F1#16 = .instr (.drw 0x0#4 0xF#4 0x1#4) ∧
  decode 0xF30A#16 = .instr (.ldVxK 0x3#4) ∧
  decode 0x5001#16 = .unrecognized .group5

/-- Decoding the word of a well-formed instruction gives the instruction back, every operand at every value; also from
the two bytes in `ram` order (R52, R76).
Own decisions and derivations it rests on: the row table of R76 (derived in part) and the byte order of R52 (derived). -/
def Obligations.EncodeThenDecodeIsIdentity : Prop :=
  ∀ i : Instr, i.wf = true →
    decode (encode i) = .instr i ∧ decodeBytes (bytesOfWord (encode i)).1 (bytesOfWord (encode i)).2 = .instr i

/-- A decoded instruction is well formed, and its word is the word it was decoded from: no bit of an instruction word
is dropped (R76). -/
def Obligations.DecodeThenEncodeIsIdentity : Prop :=
  ∀ (w : Word) (i : Instr), decode w = .instr i → i.wf = true ∧ encode i = w

/-- The decoder is the opcode table: a decoded word has its row's fixed bits; a word is an instruction exactly when it
matches a row; no two rows match the same word (R76, R81).
Own decisions and derivations it rests on: R76 and R81 carry derived marks. -/
def Obligations.DecoderFollowsTheOpcodeTable : Prop :=
  (∀ (w : Word) (i : Instr), decode w = .instr i → w &&& rowMask i = rowMatch i) ∧
  (∀ i : Instr, (rowMatch i, rowMask i) ∈ opcodeRows) ∧
  (∀ w : Word, (∃ i, decode w = .instr i) ↔ ∃ p ∈ opcodeRows, w &&& p.2 = p.1) ∧
  opcodeRows.Pairwise (fun p q => ∀ w : Word, ¬ (w &&& p.2 = p.1 ∧ w &&& q.2 = q.1))

/-- The illegal words are exactly those of R77's table, each rejected by the name of its group.
Own decisions and derivations it rests on: the decisions D3 (group 0 on the whole word) and D4 (9XYN needs N = 0). -/
def Obligations.IllegalWordsAreThoseOfTheTable : Prop :=
  ∀ (w : Word) (why : Reject), decode w = .unrecognized why ↔
    (why = .group0 ∧ fieldT w = 0x0#4 ∧ w ≠ 0x00E0#16 ∧ w ≠ 0x00EE#16) ∨
    (why = .group5 ∧ fieldT w = 0x5#4 ∧ fieldN w ≠ 0#4) ∨
    (why = .group8 ∧ fieldT w = 0x8#4 ∧ fieldN w ∈ [0x8#4, 0x9#4, 0xA#4, 0xB#4, 0xC#4, 0xD#4, 0xF#4]) ∨
    (why = .group9 ∧ fieldT w = 0x9#4 ∧ fieldN w ≠ 0#4) ∨
    (why = .groupE ∧ fieldT w = 0xE#4 ∧ fieldNN w ∉ [0x9E#8, 0xA1#8]) ∨
    (why = .groupF ∧ fieldT w = 0xF#4 ∧
      fieldNN w ∉ [0x07#8, 0x0A#8, 0x15#8, 0x18#8, 0x1E#8, 0x29#8, 0x33#8, 0x55#8, 0x65#8])

/-! ## The Step command (spec/60_exceptions.md) -/

/-- When the bytes at `pc` decode to an instruction, a Step is `exec` of it with `opcode` written by the fetch; after it
`cycles` is the free value of log entry 5 (R212).
Own decisions and derivations it rests on: cycles after a Step is the model's free value (log entry 5). -/
def Obligations.StepRunsTheDecodedInstruction : Prop :=
  ∀ (s : State) (i : Instr) (w : Word), s.cpuState = .executing → s.pc.toNat ≤ 0xFFF →
    w = wordOfBytes (s.memRead s.pc.toNat) (s.memRead (s.pc.toNat + 1)) → decode w = .instr i →
    step s = match exec i (s.setOpcode w) with
      | .next t => .next t.settleCycles
      | .fault f => .fault f
      | .refused r => .refused r

/-- A Step in ERROR_OPCODE or HALTED does nothing: no fetch, no write (R212, R229).
Own decisions and derivations it rests on: the decision D11. -/
def Obligations.StepIsIdleUnlessExecuting : Prop :=
  ∀ s : State, s.cpuState ≠ .executing → step s = .next s

/-- Fetch (R51): the word is 256 times the byte at `pc` plus the byte at `pc + 1`, the address mod 4096; a Step that
completes has stored it as `opcode`; the fetch leaves everything else, `pc` too.
Own decisions and derivations it rests on: the wrap of pc + 1, which R51 marks as derived. -/
def Obligations.FetchIsBigEndianAndWraps : Prop :=
  ∀ s : State, s.cpuState = .executing → s.pc.toNat ≤ 0xFFF →
    s.fetch16.toNat = 256 * (s.memRead s.pc.toNat).toNat + (s.memRead ((s.pc.toNat + 1) % 4096)).toNat ∧
    (∀ t, step s = .next t → t.opcode = s.fetch16) ∧
    s.fetched.opcode = s.fetch16 ∧ UnchangedBut [.opcode] s s.fetched

/-- An unrecognised word (R211): ERROR_OPCODE, `opcode` = the word, nothing else written (but `cycles`, which is any
value after a Step, log entry 5); and every later Step does nothing. Under SYS_POLICY = Refuse this holds of the words
outside group 0.
Own decisions and derivations it rests on: the decisions D3, D11 and D25; cycles is the free value of log entry 5. -/
def Obligations.UnrecognizedWordIsTerminal : Prop :=
  ∀ (s : State) (why : Reject), s.cpuState = .executing → s.pc.toNat ≤ 0xFFF →
    decode s.fetch16 = .unrecognized why → (s.params.sysPolicy = .unrecognized ∨ fieldT s.fetch16 ≠ 0#4) →
    ∃ t, step s = .next t ∧ t.cpuState = .errorOpcode ∧ t.opcode = s.fetch16 ∧
      UnchangedBut [.cpuState, .opcode, .cycles, .cycleDraws] s t ∧ step t = .next t

/-- A Step has an undefined outcome exactly under the conditions of R214, and no other (R210, R214, R215).
Own decisions and derivations it rests on: the decisions D6, D9, D12 and D26. -/
def Obligations.UndefinedOutcomesAreThoseOfTheTable : Prop :=
  ∀ (s : State) (f : Fault), step s = .fault f ↔
    s.cpuState = .executing ∧
      ((f = .pcRange ∧ 0xFFF < s.pc.toNat) ∨
       (s.pc.toNat ≤ 0xFFF ∧
        ((f = .stackOverflow ∧ (∃ nnn, decode s.fetch16 = .instr (.call nnn)) ∧ 15 ≤ s.sp.toNat) ∨
         (f = .stackUnderflow ∧ decode s.fetch16 = .instr .ret ∧ (s.sp.toNat = 0 ∨ 15 < s.sp.toNat)) ∨
         (f = .keyIndex ∧ ∃ x, (decode s.fetch16 = .instr (.skp x) ∨ decode s.fetch16 = .instr (.sknp x)) ∧
            15 < (s.reg x).toNat))))

/-- A Step is refused exactly under SYS_POLICY = Refuse, for a group-0 word other than 00E0 and 00EE (R232).
Own decisions and derivations it rests on: the decision D3. -/
def Obligations.RefusalsAreThoseOfSysPolicy : Prop :=
  ∀ (s : State) (r : Refusal), step s = .refused r ↔
    s.cpuState = .executing ∧ s.pc.toNat ≤ 0xFFF ∧ s.params.sysPolicy = .refuse ∧ fieldT s.fetch16 = 0#4 ∧
      s.fetch16 ≠ 0x00E0#16 ∧ s.fetch16 ≠ 0x00EE#16 ∧ r = .unlistedHandler s.fetch16

/-! ## Invariants and whole-machine rules -/

/-- The state after reset is legal (R41, R42).
Own decisions and derivations it rests on: the canonical form of `ram` is the model's (log entry 8), and that
`State.reset` is the state after `Init` is log entry 9. -/
def Obligations.ResetStateIsLegal : Prop := State.reset.Legal

/-- Every Step keeps the legal-value invariants: `ram` canonical, `pc` ≤ 0xFFF, `sp` ≤ 15, `I` ≤ 0xFFF, every stack slot
a legal address (R42).
Own decisions and derivations it rests on: the decisions D5 (I is masked) and D6 (sp), and the canonical form of log
entry 8. -/
def Obligations.StepKeepsLegalStates : Prop :=
  ∀ s t : State, s.Legal → step s = .next t → t.Legal

/-- The commands other than Step that the block defines keep them too (R42, R220, R240 to R244).
Own decisions and derivations it rests on: the canonical form of log entry 8. -/
def Obligations.CommandsKeepLegalStates : Prop :=
  ∀ s : State, s.Legal →
    s.tick.Legal ∧ s.doInit.Legal ∧ s.doReset.Legal ∧ s.zeroRam.Legal ∧ s.zeroProgram.Legal ∧ s.zeroDisplay.Legal

/-- An instruction that completes writes only the elements its rule names: the frame of all 34.
Own decisions and derivations it rests on: what R224 says of the draw (the model's counter, log entry 4). -/
def Obligations.InstructionsWriteOnlyTheirElements : Prop :=
  ∀ (i : Instr) (s t : State), exec i s = .next t → UnchangedBut (writtenBy i) s t

/-- No Step writes `quirks`, `keypad` or a parameter, and none writes `cpu_state` but the error outcome; in particular
none enters HALTED (R219, R226, R35).
Own decisions and derivations it rests on: R219 and R226 are derived, HALTED is D15, and the parameters are the
model's fields (log entries 1 to 3). -/
def Obligations.StepNeverWritesHostControl : Prop :=
  ∀ s t : State, step s = .next t →
    t.quirks = s.quirks ∧ t.keypad = s.keypad ∧ t.params = s.params ∧
    (t.cpuState = s.cpuState ∨
      (s.cpuState = .executing ∧ t.cpuState = .errorOpcode ∧ ∃ why, decode s.fetch16 = .unrecognized why))

/-- CXNN draws exactly one byte, and no other instruction draws (R132, R224).
Own decisions and derivations it rests on: the decision D24; the count is the model's field (log entry 4). -/
def Obligations.OnlyRndDrawsAndOnce : Prop :=
  ∀ (i : Instr) (s t : State), exec i s = .next t →
    t.draws = s.draws + (match i with | .rnd _ _ => 1 | _ => 0)

/-! ## Memory (spec/20_memory.md) -/

/-- A byte written is the byte read at every address equal mod 4096, and every other byte is left alone; the canonical
form is kept (R54, R60).
Own decisions and derivations it rests on: the canonical form of log entry 8. -/
def Obligations.MemoryReadAfterWrite : Prop :=
  ∀ (s : State) (a k : Nat) (b : Byte), s.memWf →
    (s.memWrite a b).memRead k = (if k % 4096 = a % 4096 then b else s.memRead k) ∧ (s.memWrite a b).memWf

/-- A word stored at `pc` is fetched by the very next Step (R63); `withFetchWord` places a word so.
Own decisions and derivations it rests on: withFetchWord is the model's (log entry 12); R63 is derived. -/
def Obligations.PlacedWordIsFetchedNext : Prop :=
  ∀ (s : State) (w : Word), s.memWf →
    (s.withFetchWord 16 w.toNat).fetch16 = w ∧ (s.withFetchWord 16 w.toNat).cpuState = .executing ∧
    (s.withFetchWord 16 w.toNat).pc.toNat = s.pc.toNat % 4096 ∧
    RamUnchangedBut [s.pc.toNat, s.pc.toNat + 1] s (s.withFetchWord 16 w.toNat)

/-! ## Control flow (spec/40_control_flow.md) -/

/-- 00EE (R101).
Own decisions and derivations it rests on: the decision D6, and the + 2, which R101 marks as derived. -/
def Obligations.RetPopsAndReturnsPastTheCall : Prop :=
  DecodesRow 0xFFFF#16 0x00EE#16 (fun _ => .ret) ∧
  ∀ s : State,
    (1 ≤ s.sp.toNat ∧ s.sp.toNat ≤ 15 →
      ∃ t, exec .ret s = .next t ∧ t.pc.toNat = ((s.stackSlot s.sp).toNat + 2) % 4096 ∧
        t.sp.toNat = s.sp.toNat - 1 ∧ UnchangedBut [.sp, .pc] s t) ∧
    (s.sp.toNat = 0 ∨ 15 < s.sp.toNat → exec .ret s = .fault .stackUnderflow)

/-- 1NNN (R102): `pc` is NNN, odd or even; a jump to itself changes nothing. -/
def Obligations.JpSetsPc : Prop :=
  DecodesRow 0xF000#16 0x1000#16 (fun w => .jp (fieldNNN w)) ∧
  ∀ (nnn : Addr) (s : State),
    ∃ t, exec (.jp nnn) s = .next t ∧ t.pc.toNat = nnn.toNat ∧ UnchangedBut [.pc] s t ∧
      (s.pc.toNat = nnn.toNat → t = s)

/-- A jump to itself (R102, R230): every Step repeats it, rewrites `opcode`, and changes nothing else (but `cycles`, log
entry 5); an ended run stays ended.
Own decisions and derivations it rests on: the decision D28; cycles is the free value of log entry 5. -/
def Obligations.SelfJumpRepeatsForever : Prop :=
  ∀ s : State, s.cpuState = .executing → s.pc.toNat ≤ 0xFFF → s.fetch16 = 0x1000#16 ||| s.pc →
    ∃ t, step s = .next t ∧ t.opcode = s.fetch16 ∧ UnchangedBut [.opcode, .cycles, .cycleDraws] s t ∧
      ∀ z : Session, z.mark = none → z.machine = s → z.Ended ∧ (z.issue .step).Ended

/-- 2NNN (R103).
Own decisions and derivations it rests on: the decision D6. -/
def Obligations.CallPushesItsOwnAddress : Prop :=
  DecodesRow 0xF000#16 0x2000#16 (fun w => .call (fieldNNN w)) ∧
  ∀ (nnn : Addr) (s : State),
    (s.sp.toNat < 15 →
      ∃ t, exec (.call nnn) s = .next t ∧ t.sp.toNat = s.sp.toNat + 1 ∧ t.stackSlot t.sp = s.pc ∧
        (∀ k : Fin 16, k.val ≠ s.sp.toNat + 1 → t.stack[k] = s.stack[k]) ∧ t.pc.toNat = nnn.toNat ∧
        UnchangedBut [.sp, .stack, .pc] s t) ∧
    (15 ≤ s.sp.toNat → exec (.call nnn) s = .fault .stackOverflow)

/-- A call followed by a return resumes after the call, with `sp` as before it (R101, R103; the source's round trip).
Own decisions and derivations it rests on: the decision D6 and the + 2, which R101 marks as derived. -/
def Obligations.CallThenReturnResumesAfterTheCall : Prop :=
  ∀ (nnn : Addr) (s : State), s.sp.toNat < 15 →
    ∃ t u, exec (.call nnn) s = .next t ∧ exec .ret t = .next u ∧
      u.pc.toNat = (s.pc.toNat + 2) % 4096 ∧ u.sp = s.sp ∧ UnchangedBut [.stack, .pc] s u

/-- 3XNN and 4XNN (R104, R105). -/
def Obligations.ImmediateSkips : Prop :=
  DecodesRow 0xF000#16 0x3000#16 (fun w => .seVxNn (fieldX w) (fieldNN w)) ∧
  DecodesRow 0xF000#16 0x4000#16 (fun w => .sneVxNn (fieldX w) (fieldNN w)) ∧
  ∀ (x : Reg) (nn : Byte) (s : State),
    (∃ t, exec (.seVxNn x nn) s = .next t ∧
      t.pc.toNat = (s.pc.toNat + if s.reg x = nn then 4 else 2) % 4096 ∧ UnchangedBut [.pc] s t) ∧
    (∃ t, exec (.sneVxNn x nn) s = .next t ∧
      t.pc.toNat = (s.pc.toNat + if s.reg x ≠ nn then 4 else 2) % 4096 ∧ UnchangedBut [.pc] s t)

/-- 5XY0 and 9XY0 (R106, R107).
Own decisions and derivations it rests on: for 9XY0 the decision D4. -/
def Obligations.RegisterSkips : Prop :=
  DecodesRow 0xF00F#16 0x5000#16 (fun w => .seVxVy (fieldX w) (fieldY w)) ∧
  DecodesRow 0xF00F#16 0x9000#16 (fun w => .sneVxVy (fieldX w) (fieldY w)) ∧
  ∀ (x y : Reg) (s : State),
    (∃ t, exec (.seVxVy x y) s = .next t ∧
      t.pc.toNat = (s.pc.toNat + if s.reg x = s.reg y then 4 else 2) % 4096 ∧ UnchangedBut [.pc] s t) ∧
    (∃ t, exec (.sneVxVy x y) s = .next t ∧
      t.pc.toNat = (s.pc.toNat + if s.reg x ≠ s.reg y then 4 else 2) % 4096 ∧ UnchangedBut [.pc] s t)

/-- BNNN (R108): the offset is `V[0]`, or under JUMP_VX the register whose number is the top nibble of NNN; the sum wraps
mod 4096. -/
def Obligations.JpV0AddsTheOffset : Prop :=
  DecodesRow 0xF000#16 0xB000#16 (fun w => .jpV0 ((fieldNNN w).extractLsb' 8 4) (fieldNNN w)) ∧
  ∀ (x : Reg) (nnn : Addr) (s : State),
    ∃ t, exec (.jpV0 x nnn) s = .next t ∧
      t.pc.toNat = (nnn.toNat + (if s.quirk .jumpVx then s.reg x else s.reg 0).toNat) % 4096 ∧
      UnchangedBut [.pc] s t

/-! ## Register ALU (spec/41_register_alu.md) -/

/-- 6XNN (R121). -/
def Obligations.LdVxNnLoadsTheImmediate : Prop :=
  DecodesRow 0xF000#16 0x6000#16 (fun w => .ldVxNn (fieldX w) (fieldNN w)) ∧
  ∀ (x : Reg) (nn : Byte) (s : State),
    ∃ t, exec (.ldVxNn x nn) s = .next t ∧ t.reg x = nn ∧ RegsUnchangedBut [x] s t ∧ Advanced s t ∧
      UnchangedBut [.v, .pc] s t

/-- 7XNN (R122): addition mod 256, no flag. -/
def Obligations.AddVxNnAddsWithoutFlag : Prop :=
  DecodesRow 0xF000#16 0x7000#16 (fun w => .addVxNn (fieldX w) (fieldNN w)) ∧
  ∀ (x : Reg) (nn : Byte) (s : State),
    ∃ t, exec (.addVxNn x nn) s = .next t ∧ (t.reg x).toNat = ((s.reg x).toNat + nn.toNat) % 256 ∧
      RegsUnchangedBut [x] s t ∧ Advanced s t ∧ UnchangedBut [.v, .pc] s t

/-- 8XY0 (R123): a copy; ZERO_VF does not apply. -/
def Obligations.LdVxVyCopies : Prop :=
  DecodesRow 0xF00F#16 0x8000#16 (fun w => .ldVxVy (fieldX w) (fieldY w)) ∧
  ∀ (x y : Reg) (s : State),
    ∃ t, exec (.ldVxVy x y) s = .next t ∧ t.reg x = s.reg y ∧ RegsUnchangedBut [x] s t ∧ Advanced s t ∧
      UnchangedBut [.v, .pc] s t

/-- 8XY1, 8XY2, 8XY3 (R124, R125, R126): the bitwise result in `V[x]`, then VF = 0 under ZERO_VF, also when x = 0xF.
Own decisions and derivations it rests on: the decision D22. -/
def Obligations.LogicOpsAndZeroVf : Prop :=
  DecodesRow 0xF00F#16 0x8001#16 (fun w => .orVxVy (fieldX w) (fieldY w)) ∧
  DecodesRow 0xF00F#16 0x8002#16 (fun w => .andVxVy (fieldX w) (fieldY w)) ∧
  DecodesRow 0xF00F#16 0x8003#16 (fun w => .xorVxVy (fieldX w) (fieldY w)) ∧
  ∀ (x y : Reg) (s : State),
    (∃ t, exec (.orVxVy x y) s = .next t ∧ Advanced s t ∧ UnchangedBut [.v, .pc] s t ∧
      ∀ r, t.reg r = if s.quirk .zeroVf ∧ r = vf then 0 else if r = x then s.reg x ||| s.reg y else s.reg r) ∧
    (∃ t, exec (.andVxVy x y) s = .next t ∧ Advanced s t ∧ UnchangedBut [.v, .pc] s t ∧
      ∀ r, t.reg r = if s.quirk .zeroVf ∧ r = vf then 0 else if r = x then s.reg x &&& s.reg y else s.reg r) ∧
    (∃ t, exec (.xorVxVy x y) s = .next t ∧ Advanced s t ∧ UnchangedBut [.v, .pc] s t ∧
      ∀ r, t.reg r = if s.quirk .zeroVf ∧ r = vf then 0 else if r = x then s.reg x ^^^ s.reg y else s.reg r)

/-- 8XY4 (R127): the sum mod 256 in `V[x]`, then VF = 1 if the exact sum is over 255 else 0, also when x = 0xF. -/
def Obligations.AddVxVyWritesSumThenCarry : Prop :=
  DecodesRow 0xF00F#16 0x8004#16 (fun w => .addVxVy (fieldX w) (fieldY w)) ∧
  ∀ (x y : Reg) (s : State),
    ∃ t, exec (.addVxVy x y) s = .next t ∧ Advanced s t ∧ UnchangedBut [.v, .pc] s t ∧
      ∀ r, (t.reg r).toNat =
        if r = vf then (if (s.reg x).toNat + (s.reg y).toNat > 255 then 1 else 0)
        else if r = x then ((s.reg x).toNat + (s.reg y).toNat) % 256 else (s.reg r).toNat

/-- 8XY5 and 8XY7 (R128, R130): the difference mod 256 in `V[x]`, VF = 1 when there is no borrow (equality included)
else 0; which of the two writes is last follows VF_ORDER.
Own decisions and derivations it rests on: the decision D7; both values of VF_ORDER (log entry 2). -/
def Obligations.SubtractionsWriteDifferenceAndNoBorrow : Prop :=
  DecodesRow 0xF00F#16 0x8005#16 (fun w => .sub (fieldX w) (fieldY w)) ∧
  DecodesRow 0xF00F#16 0x8007#16 (fun w => .subn (fieldX w) (fieldY w)) ∧
  ∀ (x y : Reg) (s : State),
    (∃ t, exec (.sub x y) s = .next t ∧ Advanced s t ∧ UnchangedBut [.v, .pc] s t ∧
      ∀ r, (t.reg r).toNat =
        if r = x ∧ (x ≠ vf ∨ s.params.vfOrder = .tableOrder) then ((s.reg x).toNat + 256 - (s.reg y).toNat) % 256
        else if r = vf then (if (s.reg x).toNat ≥ (s.reg y).toNat then 1 else 0) else (s.reg r).toNat) ∧
    (∃ t, exec (.subn x y) s = .next t ∧ Advanced s t ∧ UnchangedBut [.v, .pc] s t ∧
      ∀ r, (t.reg r).toNat =
        if r = x ∧ (x ≠ vf ∨ s.params.vfOrder = .tableOrder) then ((s.reg y).toNat + 256 - (s.reg x).toNat) % 256
        else if r = vf then (if (s.reg y).toNat ≥ (s.reg x).toNat then 1 else 0) else (s.reg r).toNat)

/-- 8XY6 and 8XYE (R129, R131): the source is `V[x]` under SHIFT_X_REGISTER, else `V[y]`; `V[x]` gets it shifted by one,
VF the bit shifted out; which of the two writes is last follows VF_ORDER.
Own decisions and derivations it rests on: the decision D7; both values of VF_ORDER (log entry 2). -/
def Obligations.ShiftsWriteResultAndShiftedOutBit : Prop :=
  DecodesRow 0xF00F#16 0x8006#16 (fun w => .shr (fieldX w) (fieldY w)) ∧
  DecodesRow 0xF00F#16 0x800E#16 (fun w => .shl (fieldX w) (fieldY w)) ∧
  ∀ (x y : Reg) (s : State) (src : Byte), src = (if s.quirk .shiftXRegister then s.reg x else s.reg y) →
    (∃ t, exec (.shr x y) s = .next t ∧ Advanced s t ∧ UnchangedBut [.v, .pc] s t ∧
      ∀ r, (t.reg r).toNat =
        if r = x ∧ (x ≠ vf ∨ s.params.vfOrder = .tableOrder) then src.toNat / 2
        else if r = vf then src.toNat % 2 else (s.reg r).toNat) ∧
    (∃ t, exec (.shl x y) s = .next t ∧ Advanced s t ∧ UnchangedBut [.v, .pc] s t ∧
      ∀ r, (t.reg r).toNat =
        if r = x ∧ (x ≠ vf ∨ s.params.vfOrder = .tableOrder) then (src.toNat * 2) % 256
        else if r = vf then src.toNat / 128 else (s.reg r).toNat)

/-- R120: with x = 0xF the sources are still the values on entry, and the final VF is the one R120's table gives for
each instruction, ZERO_VF value and VF_ORDER value.
Own decisions and derivations it rests on: the decisions D7 and D22. -/
def Obligations.FinalVfFollowsTheWriteOrderTable : Prop :=
  ∀ (y : Reg) (s : State) (a b : Byte), a = s.reg vf → b = s.reg y →
    (∃ t, exec (.orVxVy vf y) s = .next t ∧ t.reg vf = if s.quirk .zeroVf then 0 else a ||| b) ∧
    (∃ t, exec (.andVxVy vf y) s = .next t ∧ t.reg vf = if s.quirk .zeroVf then 0 else a &&& b) ∧
    (∃ t, exec (.xorVxVy vf y) s = .next t ∧ t.reg vf = if s.quirk .zeroVf then 0 else a ^^^ b) ∧
    (∃ t, exec (.addVxVy vf y) s = .next t ∧ (t.reg vf).toNat = (a.toNat + b.toNat) / 256) ∧
    (∃ t, exec (.sub vf y) s = .next t ∧ t.reg vf = match s.params.vfOrder with
      | .tableOrder => a - b
      | .flagLast => if b.toNat ≤ a.toNat then 1 else 0) ∧
    (∃ t, exec (.subn vf y) s = .next t ∧ t.reg vf = match s.params.vfOrder with
      | .tableOrder => b - a
      | .flagLast => if a.toNat ≤ b.toNat then 1 else 0) ∧
    (∃ t, exec (.shr vf y) s = .next t ∧ (t.reg vf).toNat = match s.params.vfOrder with
      | .tableOrder => (if s.quirk .shiftXRegister then a else b).toNat / 2
      | .flagLast => (if s.quirk .shiftXRegister then a else b).toNat % 2) ∧
    (∃ t, exec (.shl vf y) s = .next t ∧ (t.reg vf).toNat = match s.params.vfOrder with
      | .tableOrder => (if s.quirk .shiftXRegister then a else b).toNat * 2 % 256
      | .flagLast => (if s.quirk .shiftXRegister then a else b).toNat / 128)

/-- CXNN (R132): one byte is drawn, whatever NN is; `V[x]` is the draw AND NN, so no bit outside NN is set. The draw is a
free value (log entry 4).
Own decisions and derivations it rests on: the decisions D20 and D24; the byte is the free value of log entry 4. -/
def Obligations.RndMasksOneDraw : Prop :=
  DecodesRow 0xF000#16 0xC000#16 (fun w => .rnd (fieldX w) (fieldNN w)) ∧
  ∀ (x : Reg) (nn : Byte) (s : State),
    ∃ t, exec (.rnd x nn) s = .next t ∧ t.reg x = s.randomByte &&& nn ∧ t.reg x &&& ~~~ nn = 0 ∧
      t.draws = s.draws + 1 ∧ RegsUnchangedBut [x] s t ∧ Advanced s t ∧ UnchangedBut [.v, .draws, .pc] s t

/-! ## Index register and memory transfers (spec/42_index_memory.md) -/

/-- ANNN, FX1E and FX29 (R150, R151, R152): `I`, and nothing but `I` and `pc`.
Own decisions and derivations it rests on: the decisions D5 and D18. -/
def Obligations.IndexLoadsAndSums : Prop :=
  DecodesRow 0xF000#16 0xA000#16 (fun w => .ldI (fieldNNN w)) ∧
  DecodesRow 0xF0FF#16 0xF01E#16 (fun w => .addIVx (fieldX w)) ∧
  DecodesRow 0xF0FF#16 0xF029#16 (fun w => .ldFVx (fieldX w)) ∧
  (∀ (nnn : Addr) (s : State),
    ∃ t, exec (.ldI nnn) s = .next t ∧ t.i.toNat = nnn.toNat ∧ Advanced s t ∧ UnchangedBut [.i, .pc] s t) ∧
  ∀ (x : Reg) (s : State),
    (∃ t, exec (.addIVx x) s = .next t ∧ t.i.toNat = (s.i.toNat + (s.reg x).toNat) % 4096 ∧ Advanced s t ∧
      UnchangedBut [.i, .pc] s t) ∧
    (∃ t, exec (.ldFVx x) s = .next t ∧ t.i.toNat = (s.reg x).toNat * 5 ∧ Advanced s t ∧
      UnchangedBut [.i, .pc] s t)

/-- FX33 (R153): hundreds, tens and ones at `I`, `I + 1`, `I + 2` (mod 4096), every other byte as before.
Own decisions and derivations it rests on: that the canonical form of `ram` is kept is the model's (log entry 8). -/
def Obligations.LdBVxStoresDecimalDigits : Prop :=
  DecodesRow 0xF0FF#16 0xF033#16 (fun w => .ldBVx (fieldX w)) ∧
  ∀ (x : Reg) (s : State),
    ∃ t, exec (.ldBVx x) s = .next t ∧ Advanced s t ∧ UnchangedBut [.ram, .pc] s t ∧
      RamUnchangedBut [s.indexed 0, s.indexed 1, s.indexed 2] s t ∧
      (s.memWf → t.memWf ∧
        (t.memRead (s.indexed 0)).toNat = (s.reg x).toNat / 100 ∧
        (t.memRead (s.indexed 1)).toNat = (s.reg x).toNat / 10 % 10 ∧
        (t.memRead (s.indexed 2)).toNat = (s.reg x).toNat % 10)

/-- FX55 (R154): `V[0]..V[x]` at `I`..`I + x` (mod 4096), every other byte as before; `I` moves past them under
INCREMENT_I only.
Own decisions and derivations it rests on: the decision D5; that the canonical form of `ram` is kept is the model's
(log entry 8). -/
def Obligations.LdMiVxStoresTheBlock : Prop :=
  DecodesRow 0xF0FF#16 0xF055#16 (fun w => .ldMiVx (fieldX w)) ∧
  ∀ (x : Reg) (s : State),
    ∃ t, exec (.ldMiVx x) s = .next t ∧ Advanced s t ∧ UnchangedBut [.ram, .i, .pc] s t ∧
      t.i.toNat = (if s.quirk .incrementI then (s.i.toNat + x.toNat + 1) % 4096 else s.i.toNat) ∧
      RamUnchangedBut ((List.range (x.toNat + 1)).map s.indexed) s t ∧
      (s.memWf → t.memWf ∧ ∀ k : Reg, k.toNat ≤ x.toNat → t.memRead (s.indexed k.toNat) = s.reg k)

/-- FX65 (R155): `V[0]..V[x]` from `I`..`I + x` (mod 4096), the other registers and every byte of `ram` as before; `I`
moves past them under INCREMENT_I only.
Own decisions and derivations it rests on: the decision D5. -/
def Obligations.LdVxMiLoadsTheBlock : Prop :=
  DecodesRow 0xF0FF#16 0xF065#16 (fun w => .ldVxMi (fieldX w)) ∧
  ∀ (x : Reg) (s : State),
    ∃ t, exec (.ldVxMi x) s = .next t ∧ Advanced s t ∧ UnchangedBut [.v, .i, .pc] s t ∧
      t.i.toNat = (if s.quirk .incrementI then (s.i.toNat + x.toNat + 1) % 4096 else s.i.toNat) ∧
      ∀ k : Reg, t.reg k = if k.toNat ≤ x.toNat then s.memRead (s.indexed k.toNat) else s.reg k

/-! ## Display (spec/43_display_blitter.md) -/

/-- 00E0 (R171).
Own decisions and derivations it rests on: the decision D10. -/
def Obligations.ClsClearsEveryPixel : Prop :=
  DecodesRow 0xFFFF#16 0x00E0#16 (fun _ => .cls) ∧
  ∀ s : State,
    ∃ t, exec .cls s = .next t ∧ (∀ px py, t.display.pix px py = false) ∧ t.drawDisplay = 1 ∧ Advanced s t ∧
      UnchangedBut [.display, .drawDisplay, .pc] s t

/-- DXYN as a set operation (R172, R174, R175, R177): the display after is the display before XOR the touched pixels, VF
is 1 exactly when a touched pixel was set, coordinates are read before VF is written; for every N, 0 too.
Own decisions and derivations it rests on: the decisions D8 and D10; R175 is derived. -/
def Obligations.DrwIsXorOfTouchedPixels : Prop :=
  DecodesRow 0xF000#16 0xD000#16 (fun w => .drw (fieldX w) (fieldY w) (fieldN w)) ∧
  ∀ (x y : Reg) (n : Nibble) (s : State),
    ∃ t, exec (.drw x y n) s = .next t ∧
      (∀ px py, (Touched s (s.reg x) (s.reg y) n.toNat px py → t.display.pix px py = !s.display.pix px py) ∧
        (¬ Touched s (s.reg x) (s.reg y) n.toNat px py → t.display.pix px py = s.display.pix px py)) ∧
      (t.reg vf = 1 ∨ t.reg vf = 0) ∧
      (t.reg vf = 1 ↔ ∃ px py, Touched s (s.reg x) (s.reg y) n.toNat px py ∧ s.display.pix px py = true) ∧
      RegsUnchangedBut [vf] s t ∧ t.drawDisplay = 1 ∧ Advanced s t ∧
      UnchangedBut [.display, .v, .drawDisplay, .pc] s t

/-- DXYN as a 64-bit row datapath (R180): every display row is XORed with the mask of the sprite row that maps to it, and
VF is 1 exactly when some mask meets a set pixel.
Own decisions and derivations it rests on: R180 is derived; the decision D8; that a row of
`State.display` is R180's row word is the model's layout (log entry 10). -/
def Obligations.DrwIsTheRowDatapath : Prop :=
  ∀ (x y : Reg) (n : Nibble) (s t : State), exec (.drw x y n) s = .next t →
    (∀ (r : Nat) (py : Fin 32), r < n.toNat → spriteRowAt (s.quirk .displayClipping) (s.reg y) r = some py.val →
      t.display[py] = s.display[py] ^^^
        spriteRowMask (s.quirk .displayClipping) (s.reg x) (s.memRead (s.indexed r))) ∧
    (∀ py : Fin 32, (∀ r, r < n.toNat → spriteRowAt (s.quirk .displayClipping) (s.reg y) r ≠ some py.val) →
      t.display[py] = s.display[py]) ∧
    (t.reg vf = 1 ↔ ∃ (r : Nat) (py : Fin 32), r < n.toNat ∧
      spriteRowAt (s.quirk .displayClipping) (s.reg y) r = some py.val ∧
      s.display[py] &&& spriteRowMask (s.quirk .displayClipping) (s.reg x) (s.memRead (s.indexed r)) ≠ 0)

/-- The same sprite drawn twice restores the display, and the second VF is 1 exactly when the first draw set a pixel
(R179); the coordinates are not in VF.
Own decisions and derivations it rests on: R179 is derived; the decision D8. -/
def Obligations.DrawingTwiceRestoresTheDisplay : Prop :=
  ∀ (x y : Reg) (n : Nibble) (s t u : State), x ≠ vf → y ≠ vf →
    exec (.drw x y n) s = .next t → exec (.drw x y n) t = .next u →
    u.display = s.display ∧
    (u.reg vf = 1 ↔ ∃ px py, Touched s (s.reg x) (s.reg y) n.toNat px py ∧ s.display.pix px py = false)

/-- Where sprite bits fall (R173): each coordinate wraps, or under DISPLAY_CLIPPING only the anchor does and what then
lies outside is dropped; no two bits of a sprite share a pixel (R175).
Own decisions and derivations it rests on: R175 is derived. -/
def Obligations.SpriteBitsFallOnDistinctPixels : Prop :=
  ∀ (clip : Bool) (cx cy : Byte) (c r : Nat) (px : Fin 64) (py : Fin 32), c < 8 → r < 15 →
    (target clip cx cy c r = .pixel px py ↔
      if clip then px.val = cx.toNat % 64 + c ∧ py.val = cy.toNat % 32 + r
      else px.val = (cx.toNat + c) % 64 ∧ py.val = (cy.toNat + r) % 32) ∧
    (∀ c' r', c' < 8 → r' < 15 → target clip cx cy c r = .pixel px py → target clip cx cy c' r' = .pixel px py →
      c = c' ∧ r = r')

/-- The packed image of the display (R31): pixel (px, py) is bit `7 - (px & 7)` of byte `py*8 + (px >> 3)`, of 256.
Own decisions and derivations it rests on: the decision D13; the layout of `State.display` is log entry 10. -/
def Obligations.PackedImageHoldsThePixels : Prop :=
  ∀ s : State, s.packedDisplay.length = 256 ∧
    ∀ (px : Fin 64) (py : Fin 32),
      (s.packedDisplay.getD (py.val * 8 + px.val / 8) 0).getLsbD (7 - px.val % 8) = s.display.pix px py

/-! ## Keypad and timers (spec/44_keypad_timer_regs.md, spec/60_exceptions.md) -/

/-- EX9E and EXA1 (R191, R192): skip by the key `V[x]`; undefined when `V[x]` > 15.
Own decisions and derivations it rests on: the decisions D9 and D30. -/
def Obligations.KeySkips : Prop :=
  DecodesRow 0xF0FF#16 0xE09E#16 (fun w => .skp (fieldX w)) ∧
  DecodesRow 0xF0FF#16 0xE0A1#16 (fun w => .sknp (fieldX w)) ∧
  ∀ (x : Reg) (s : State),
    ((s.reg x).toNat ≤ 15 →
      (∃ t, exec (.skp x) s = .next t ∧ UnchangedBut [.pc] s t ∧
        t.pc.toNat = (s.pc.toNat + if s.keypad.getLsbD (s.reg x).toNat then 4 else 2) % 4096) ∧
      (∃ t, exec (.sknp x) s = .next t ∧ UnchangedBut [.pc] s t ∧
        t.pc.toNat = (s.pc.toNat + if s.keypad.getLsbD (s.reg x).toNat then 2 else 4) % 4096)) ∧
    (15 < (s.reg x).toNat → exec (.skp x) s = .fault .keyIndex ∧ exec (.sknp x) s = .fault .keyIndex)

/-- FX0A (R193): if a marked key is up, the lowest goes to `V[x]`, the marks are cleared and `pc` advances; else only the
marks change and `pc` stays. -/
def Obligations.LdVxKWaitsForARelease : Prop :=
  DecodesRow 0xF0FF#16 0xF00A#16 (fun w => .ldVxK (fieldX w)) ∧
  ∀ (x : Reg) (s : State),
    (∀ k, k < 16 → KeyQualifies s k → (∀ j, j < k → ¬ KeyQualifies s j) →
      ∃ t, exec (.ldVxK x) s = .next t ∧ (t.reg x).toNat = k ∧ RegsUnchangedBut [x] s t ∧ t.fxoaState = 0 ∧
        Advanced s t ∧ UnchangedBut [.v, .fxoaState, .pc] s t) ∧
    ((∀ k, k < 16 → ¬ KeyQualifies s k) →
      ∃ t, exec (.ldVxK x) s = .next t ∧ t.fxoaState = s.fxoaState ||| s.keypad ∧ UnchangedBut [.fxoaState] s t)

/-- The source's key property (R193, R194): key k down on one Step and up on the next, FX0A completes on the second and
not before.
Own decisions and derivations it rests on: that bit k of keypad is key k is the decision D30. -/
def Obligations.KeyPressThenReleaseCompletesTheWait : Prop :=
  ∀ (x : Reg) (s : State) (k : Nat), k < 16 → s.fxoaState = 0 → s.keypad = 1#16 <<< k →
    ∃ t u, exec (.ldVxK x) s = .next t ∧ t.pc = s.pc ∧ t.reg x = s.reg x ∧ t.fxoaState = 1#16 <<< k ∧
      exec (.ldVxK x) (t.hostWrite (.keypad 0)) = .next u ∧ (u.reg x).toNat = k ∧ u.fxoaState = 0 ∧ Advanced s u

/-- FX07, FX15 and FX18 (R195, R196, R197); after FX18 exactly the next `V[x]` Ticks signal sound. -/
def Obligations.TimerRegisterMoves : Prop :=
  DecodesRow 0xF0FF#16 0xF007#16 (fun w => .ldVxDt (fieldX w)) ∧
  DecodesRow 0xF0FF#16 0xF015#16 (fun w => .ldDtVx (fieldX w)) ∧
  DecodesRow 0xF0FF#16 0xF018#16 (fun w => .ldStVx (fieldX w)) ∧
  ∀ (x : Reg) (s : State),
    (∃ t, exec (.ldVxDt x) s = .next t ∧ t.reg x = s.delayTimer ∧ RegsUnchangedBut [x] s t ∧ Advanced s t ∧
      UnchangedBut [.v, .pc] s t) ∧
    (∃ t, exec (.ldDtVx x) s = .next t ∧ t.delayTimer = s.reg x ∧ Advanced s t ∧
      UnchangedBut [.delayTimer, .pc] s t) ∧
    (∃ t, exec (.ldStVx x) s = .next t ∧ t.soundTimer = s.reg x ∧ Advanced s t ∧
      UnchangedBut [.soundTimer, .pc] s t ∧ ∀ k : Nat, (State.tick^[k] t).beeps = decide (k < (s.reg x).toNat))

/-- FX15 followed by FX07 with no Tick between reads back the value written; with k Ticks between, the value less k, not
below 0 (R257, R220).
Own decisions and derivations it rests on: R257 is derived. -/
def Obligations.DelayTimerReadsBackLessTheTicks : Prop :=
  ∀ (x y : Reg) (s : State) (k : Nat),
    ∃ t u, exec (.ldDtVx x) s = .next t ∧ exec (.ldVxDt y) (State.tick^[k] t) = .next u ∧
      (u.reg y).toNat = (s.reg x).toNat - k

/-- `Tick` (R220): each timer counts down and stops at 0; nothing else is written; one Beep exactly when `sound_timer`
was nonzero.
Own decisions and derivations it rests on: the decisions D16 and D27. -/
def Obligations.TickCountsDownAndBeeps : Prop :=
  (∀ s : State, s.tick.delayTimer.toNat = s.delayTimer.toNat - 1 ∧ s.tick.soundTimer.toNat = s.soundTimer.toNat - 1 ∧
    UnchangedBut [.delayTimer, .soundTimer] s s.tick) ∧
  ∀ z : Session, z.mark = none → (z.issue .tick).machine = z.machine.tick ∧ (z.issue .tick).mark = none ∧
    (z.issue .tick).trace = z.trace ++ (if z.machine.soundTimer = 0 then [] else [Event.beep])

/-- Over a run the Beep events number the Ticks that found `sound_timer` nonzero (R225).
Own decisions and derivations it rests on: the decision D27. -/
def Obligations.BeepsCountTheSoundingTicks : Prop :=
  ∀ (cs : List Command) (z : Session),
    (z.issueAll cs).trace.length = z.trace.length + beepingTicks z cs

/-! ## Initialisation, reset, faults and boot (spec/60_exceptions.md, spec/70_reset_and_hazards.md) -/

/-- `Init` (R240): whatever the state before, every element has the value of R41's column "after `Init`"; it is
idempotent.
Own decisions and derivations it rests on: the decisions D10 (draw_display) and D14 (FONT is a parameter, log entry
1). -/
def Obligations.InitSetsEveryElement : Prop :=
  ∀ s : State,
    (∀ x, s.doInit.reg x = 0) ∧ s.doInit.i = 0 ∧ s.doInit.pc = 0x200#16 ∧ s.doInit.sp = 0 ∧
    (∀ k : Fin 16, s.doInit.stack[k] = 0) ∧ s.doInit.opcode = 0 ∧ s.doInit.keypad = 0 ∧ s.doInit.fxoaState = 0 ∧
    s.doInit.delayTimer = 0 ∧ s.doInit.soundTimer = 0 ∧ s.doInit.cpuState = .executing ∧ s.doInit.cycles = 0 ∧
    s.doInit.quirks = 0 ∧
    (∀ (a : Nat) (h : a < 80), s.doInit.memRead a = s.params.font[a]) ∧
    (∀ a : Nat, 80 ≤ a → a < 4096 → s.doInit.memRead a = 0) ∧
    (∀ px py, s.doInit.display.pix px py = false) ∧ s.doInit.drawDisplay = 0 ∧ s.doInit.doInit = s.doInit

/-- The state after reset is the state after `Init` (R41, R247; log entry 9).
Own decisions and derivations it rests on: that a run starts after Init is D29 (log entry 9). -/
def Obligations.ResetIsTheStateAfterInit : Prop := State.reset.doInit = State.reset

/-- `Reset` (R241): the elements it zeroes, the display only under CLEAR_SCREEN_ON_RESET, and nothing else.
Own decisions and derivations it rests on: for draw_display the decision D10. -/
def Obligations.ResetZeroesAllButMemoryAndQuirks : Prop :=
  ∀ s : State,
    (∀ x, s.doReset.reg x = 0) ∧ s.doReset.i = 0 ∧ s.doReset.pc = 0x200#16 ∧ s.doReset.sp = 0 ∧
    (∀ k : Fin 16, s.doReset.stack[k] = 0) ∧ s.doReset.opcode = 0 ∧ s.doReset.keypad = 0 ∧
    s.doReset.fxoaState = 0 ∧ s.doReset.delayTimer = 0 ∧ s.doReset.soundTimer = 0 ∧
    s.doReset.cpuState = .executing ∧ s.doReset.cycles = 0 ∧
    (∀ px py, s.doReset.display.pix px py =
      if s.quirk .clearScreenOnReset then false else s.display.pix px py) ∧
    UnchangedBut [.v, .i, .pc, .sp, .stack, .opcode, .keypad, .fxoaState, .delayTimer, .soundTimer, .cpuState,
      .cycles, .display] s s.doReset

/-- `ZeroRam`, `ZeroProgram`, `ZeroDisplay` (R242, R243, R244): the exact ranges, and nothing else; `Reset` and
`ZeroProgram` touch disjoint state, so their order does not matter (R246).
Own decisions and derivations it rests on: the decisions D10 and D23. -/
def Obligations.ZeroingCommandsHaveExactRanges : Prop :=
  ∀ s : State,
    (∀ a, s.zeroRam.memRead a = 0) ∧ UnchangedBut [.ram] s s.zeroRam ∧
    (∀ a, a < 4096 → s.zeroProgram.memRead a = if 0x200 ≤ a then 0 else s.memRead a) ∧
    UnchangedBut [.ram] s s.zeroProgram ∧
    (∀ px py, s.zeroDisplay.display.pix px py = false) ∧ UnchangedBut [.display] s s.zeroDisplay ∧
    s.doReset.zeroProgram = s.zeroProgram.doReset

/-- A Step with an undefined outcome (R213) or a refused one (R232) records its reason and writes nothing but `opcode`,
which is the fetched word where a fetch happened and is unchanged where `pc` is out of range (R212); then every command,
`Reset` and `Init` included, leaves everything unchanged.
Own decisions and derivations it rests on: the decisions D3, D6 and D12; the mark is the model's (log entry 6). -/
def Obligations.FaultMarkIsAbsorbing : Prop :=
  (∀ (z : Session) (f : Fault), z.mark = none → step z.machine = .fault f →
    (z.issue .step).mark = some (.fault f) ∧ (z.issue .step).trace = z.trace ∧
    (z.issue .step).machine.opcode =
      (if z.machine.pc.toNat ≤ 0xFFF then z.machine.fetch16 else z.machine.opcode) ∧
    UnchangedBut [.opcode] z.machine (z.issue .step).machine) ∧
  (∀ (z : Session) (r : Refusal), z.mark = none → step z.machine = .refused r →
    (z.issue .step).mark = some (.refused r) ∧ (z.issue .step).trace = z.trace ∧
    (z.issue .step).machine.opcode = z.machine.fetch16 ∧
    UnchangedBut [.opcode] z.machine (z.issue .step).machine) ∧
  ∀ (cs : List Command) (z : Session), z.mark ≠ none → z.issueAll cs = z

/-- A host write between commands (R43) writes its element with the value as given, and nothing else: of `V`, `stack`,
`ram` and `display` the one register, slot, byte or pixel it names. A write of `cpu_state` is the way into HALTED and
one way out of it and of ERROR_OPCODE (R218, R229).
Own decisions and derivations it rests on: the decisions D15 and D19; the canonical form of `ram` is log entry 8. -/
def Obligations.HostWritesOneElement : Prop :=
  ∀ s : State,
    (∀ w : HostWrite, UnchangedBut [w.element] s (s.hostWrite w)) ∧
    (∀ x b r, (s.hostWrite (.v x b)).reg r = if r = x then b else s.reg r) ∧
    (∀ w, (s.hostWrite (.pc w)).pc = w ∧ (s.hostWrite (.i w)).i = w ∧ (s.hostWrite (.sp w)).sp = w ∧
      (s.hostWrite (.opcode w)).opcode = w ∧ (s.hostWrite (.keypad w)).keypad = w ∧
      (s.hostWrite (.fxoaState w)).fxoaState = w) ∧
    (∀ b, (s.hostWrite (.quirks b)).quirks = b ∧ (s.hostWrite (.delayTimer b)).delayTimer = b ∧
      (s.hostWrite (.soundTimer b)).soundTimer = b ∧ (s.hostWrite (.drawDisplay b)).drawDisplay = b) ∧
    (∀ c, (s.hostWrite (.cpuState c)).cpuState = c) ∧
    (∀ n, (s.hostWrite (.cycles n)).cycles = n) ∧
    (∀ (k : Nibble) (w : Word) (j : Fin 16),
      (s.hostWrite (.stack k w)).stack[j] = if j.val = k.toNat then w else s.stack[j]) ∧
    (∀ (a : Addr) (b : Byte), RamUnchangedBut [a.toNat] s (s.hostWrite (.ram a b)) ∧
      (s.memWf → (s.hostWrite (.ram a b)).memWf ∧ (s.hostWrite (.ram a b)).memRead a.toNat = b)) ∧
    (∀ (px : Fin 64) (py : Fin 32) (on : Bool) (qx : Fin 64) (qy : Fin 32),
      (s.hostWrite (.pixel px py on)).display.pix qx qy =
        if qx = px ∧ qy = py then on else s.display.pix qx qy)

/-- The launch of a program (R248): after `Init`, the quirks written and the image loaded at 0x200, every byte of the
image is in place, every other byte and every other element is as after `Init`, and no mark is recorded.
Own decisions and derivations it rests on: the decision D19. -/
def Obligations.LaunchPlacesTheProgram : Prop :=
  ∀ (s : State) (q : Byte) (image : List Byte), image.length ≤ 3584 →
    ∃ z, launch s q image = some z ∧ z.mark = none ∧ z.trace = [] ∧ z.machine.quirks = q ∧
      (∀ k, k < image.length → z.machine.memRead (0x200 + k) = image.getD k 0) ∧
      (∀ a, a < 4096 → (a < 0x200 ∨ 0x200 + image.length ≤ a) → z.machine.memRead a = s.doInit.memRead a) ∧
      UnchangedBut [.quirks, .ram] s.doInit z.machine
end

