-- ==== Sys2Proof/Laws/State.lean ====
section
/-!
SUPPORT. Each field after each update of the state: one lemma per field per update, true by rfl, so that no later proof
unfolds a record update.
-/

namespace Sys2Proof.Machine

variable (s : State)

/-! ## `setReg` -/

@[simp] theorem State.setReg_v (x : Reg) (b : Byte) : (s.setReg x b).v = s.v.set x.toNat b x.isLt := rfl
@[simp] theorem State.setReg_i (x : Reg) (b : Byte) : (s.setReg x b).i = s.i := rfl
@[simp] theorem State.setReg_pc (x : Reg) (b : Byte) : (s.setReg x b).pc = s.pc := rfl
@[simp] theorem State.setReg_sp (x : Reg) (b : Byte) : (s.setReg x b).sp = s.sp := rfl
@[simp] theorem State.setReg_stack (x : Reg) (b : Byte) : (s.setReg x b).stack = s.stack := rfl
@[simp] theorem State.setReg_opcode (x : Reg) (b : Byte) : (s.setReg x b).opcode = s.opcode := rfl
@[simp] theorem State.setReg_keypad (x : Reg) (b : Byte) : (s.setReg x b).keypad = s.keypad := rfl
@[simp] theorem State.setReg_fxoaState (x : Reg) (b : Byte) : (s.setReg x b).fxoaState = s.fxoaState := rfl
@[simp] theorem State.setReg_delayTimer (x : Reg) (b : Byte) : (s.setReg x b).delayTimer = s.delayTimer := rfl
@[simp] theorem State.setReg_soundTimer (x : Reg) (b : Byte) : (s.setReg x b).soundTimer = s.soundTimer := rfl
@[simp] theorem State.setReg_cpuState (x : Reg) (b : Byte) : (s.setReg x b).cpuState = s.cpuState := rfl
@[simp] theorem State.setReg_cycles (x : Reg) (b : Byte) : (s.setReg x b).cycles = s.cycles := rfl
@[simp] theorem State.setReg_quirks (x : Reg) (b : Byte) : (s.setReg x b).quirks = s.quirks := rfl
@[simp] theorem State.setReg_ram (x : Reg) (b : Byte) : (s.setReg x b).ram = s.ram := rfl
@[simp] theorem State.setReg_display (x : Reg) (b : Byte) : (s.setReg x b).display = s.display := rfl
@[simp] theorem State.setReg_drawDisplay (x : Reg) (b : Byte) : (s.setReg x b).drawDisplay = s.drawDisplay := rfl
@[simp] theorem State.setReg_params (x : Reg) (b : Byte) : (s.setReg x b).params = s.params := rfl
@[simp] theorem State.setReg_draws (x : Reg) (b : Byte) : (s.setReg x b).draws = s.draws := rfl
@[simp] theorem State.setReg_cycleDraws (x : Reg) (b : Byte) : (s.setReg x b).cycleDraws = s.cycleDraws := rfl

/-! ## `setI` -/

@[simp] theorem State.setI_v (w : Word) : (s.setI w).v = s.v := rfl
@[simp] theorem State.setI_i (w : Word) : (s.setI w).i = w &&& 0x0FFF#16 := rfl
@[simp] theorem State.setI_pc (w : Word) : (s.setI w).pc = s.pc := rfl
@[simp] theorem State.setI_sp (w : Word) : (s.setI w).sp = s.sp := rfl
@[simp] theorem State.setI_stack (w : Word) : (s.setI w).stack = s.stack := rfl
@[simp] theorem State.setI_opcode (w : Word) : (s.setI w).opcode = s.opcode := rfl
@[simp] theorem State.setI_keypad (w : Word) : (s.setI w).keypad = s.keypad := rfl
@[simp] theorem State.setI_fxoaState (w : Word) : (s.setI w).fxoaState = s.fxoaState := rfl
@[simp] theorem State.setI_delayTimer (w : Word) : (s.setI w).delayTimer = s.delayTimer := rfl
@[simp] theorem State.setI_soundTimer (w : Word) : (s.setI w).soundTimer = s.soundTimer := rfl
@[simp] theorem State.setI_cpuState (w : Word) : (s.setI w).cpuState = s.cpuState := rfl
@[simp] theorem State.setI_cycles (w : Word) : (s.setI w).cycles = s.cycles := rfl
@[simp] theorem State.setI_quirks (w : Word) : (s.setI w).quirks = s.quirks := rfl
@[simp] theorem State.setI_ram (w : Word) : (s.setI w).ram = s.ram := rfl
@[simp] theorem State.setI_display (w : Word) : (s.setI w).display = s.display := rfl
@[simp] theorem State.setI_drawDisplay (w : Word) : (s.setI w).drawDisplay = s.drawDisplay := rfl
@[simp] theorem State.setI_params (w : Word) : (s.setI w).params = s.params := rfl
@[simp] theorem State.setI_draws (w : Word) : (s.setI w).draws = s.draws := rfl
@[simp] theorem State.setI_cycleDraws (w : Word) : (s.setI w).cycleDraws = s.cycleDraws := rfl

/-! ## `setPc` -/

@[simp] theorem State.setPc_v (w : Word) : (s.setPc w).v = s.v := rfl
@[simp] theorem State.setPc_i (w : Word) : (s.setPc w).i = s.i := rfl
@[simp] theorem State.setPc_pc (w : Word) : (s.setPc w).pc = w &&& 0x0FFF#16 := rfl
@[simp] theorem State.setPc_sp (w : Word) : (s.setPc w).sp = s.sp := rfl
@[simp] theorem State.setPc_stack (w : Word) : (s.setPc w).stack = s.stack := rfl
@[simp] theorem State.setPc_opcode (w : Word) : (s.setPc w).opcode = s.opcode := rfl
@[simp] theorem State.setPc_keypad (w : Word) : (s.setPc w).keypad = s.keypad := rfl
@[simp] theorem State.setPc_fxoaState (w : Word) : (s.setPc w).fxoaState = s.fxoaState := rfl
@[simp] theorem State.setPc_delayTimer (w : Word) : (s.setPc w).delayTimer = s.delayTimer := rfl
@[simp] theorem State.setPc_soundTimer (w : Word) : (s.setPc w).soundTimer = s.soundTimer := rfl
@[simp] theorem State.setPc_cpuState (w : Word) : (s.setPc w).cpuState = s.cpuState := rfl
@[simp] theorem State.setPc_cycles (w : Word) : (s.setPc w).cycles = s.cycles := rfl
@[simp] theorem State.setPc_quirks (w : Word) : (s.setPc w).quirks = s.quirks := rfl
@[simp] theorem State.setPc_ram (w : Word) : (s.setPc w).ram = s.ram := rfl
@[simp] theorem State.setPc_display (w : Word) : (s.setPc w).display = s.display := rfl
@[simp] theorem State.setPc_drawDisplay (w : Word) : (s.setPc w).drawDisplay = s.drawDisplay := rfl
@[simp] theorem State.setPc_params (w : Word) : (s.setPc w).params = s.params := rfl
@[simp] theorem State.setPc_draws (w : Word) : (s.setPc w).draws = s.draws := rfl
@[simp] theorem State.setPc_cycleDraws (w : Word) : (s.setPc w).cycleDraws = s.cycleDraws := rfl

/-! ## `advance` -/

@[simp] theorem State.advance_v : (s.advance).v = s.v := rfl
@[simp] theorem State.advance_i : (s.advance).i = s.i := rfl
@[simp] theorem State.advance_pc : (s.advance).pc = (s.pc + 2) &&& 0x0FFF#16 := rfl
@[simp] theorem State.advance_sp : (s.advance).sp = s.sp := rfl
@[simp] theorem State.advance_stack : (s.advance).stack = s.stack := rfl
@[simp] theorem State.advance_opcode : (s.advance).opcode = s.opcode := rfl
@[simp] theorem State.advance_keypad : (s.advance).keypad = s.keypad := rfl
@[simp] theorem State.advance_fxoaState : (s.advance).fxoaState = s.fxoaState := rfl
@[simp] theorem State.advance_delayTimer : (s.advance).delayTimer = s.delayTimer := rfl
@[simp] theorem State.advance_soundTimer : (s.advance).soundTimer = s.soundTimer := rfl
@[simp] theorem State.advance_cpuState : (s.advance).cpuState = s.cpuState := rfl
@[simp] theorem State.advance_cycles : (s.advance).cycles = s.cycles := rfl
@[simp] theorem State.advance_quirks : (s.advance).quirks = s.quirks := rfl
@[simp] theorem State.advance_ram : (s.advance).ram = s.ram := rfl
@[simp] theorem State.advance_display : (s.advance).display = s.display := rfl
@[simp] theorem State.advance_drawDisplay : (s.advance).drawDisplay = s.drawDisplay := rfl
@[simp] theorem State.advance_params : (s.advance).params = s.params := rfl
@[simp] theorem State.advance_draws : (s.advance).draws = s.draws := rfl
@[simp] theorem State.advance_cycleDraws : (s.advance).cycleDraws = s.cycleDraws := rfl

/-! ## `setSp` -/

@[simp] theorem State.setSp_v (w : Word) : (s.setSp w).v = s.v := rfl
@[simp] theorem State.setSp_i (w : Word) : (s.setSp w).i = s.i := rfl
@[simp] theorem State.setSp_pc (w : Word) : (s.setSp w).pc = s.pc := rfl
@[simp] theorem State.setSp_sp (w : Word) : (s.setSp w).sp = w := rfl
@[simp] theorem State.setSp_stack (w : Word) : (s.setSp w).stack = s.stack := rfl
@[simp] theorem State.setSp_opcode (w : Word) : (s.setSp w).opcode = s.opcode := rfl
@[simp] theorem State.setSp_keypad (w : Word) : (s.setSp w).keypad = s.keypad := rfl
@[simp] theorem State.setSp_fxoaState (w : Word) : (s.setSp w).fxoaState = s.fxoaState := rfl
@[simp] theorem State.setSp_delayTimer (w : Word) : (s.setSp w).delayTimer = s.delayTimer := rfl
@[simp] theorem State.setSp_soundTimer (w : Word) : (s.setSp w).soundTimer = s.soundTimer := rfl
@[simp] theorem State.setSp_cpuState (w : Word) : (s.setSp w).cpuState = s.cpuState := rfl
@[simp] theorem State.setSp_cycles (w : Word) : (s.setSp w).cycles = s.cycles := rfl
@[simp] theorem State.setSp_quirks (w : Word) : (s.setSp w).quirks = s.quirks := rfl
@[simp] theorem State.setSp_ram (w : Word) : (s.setSp w).ram = s.ram := rfl
@[simp] theorem State.setSp_display (w : Word) : (s.setSp w).display = s.display := rfl
@[simp] theorem State.setSp_drawDisplay (w : Word) : (s.setSp w).drawDisplay = s.drawDisplay := rfl
@[simp] theorem State.setSp_params (w : Word) : (s.setSp w).params = s.params := rfl
@[simp] theorem State.setSp_draws (w : Word) : (s.setSp w).draws = s.draws := rfl
@[simp] theorem State.setSp_cycleDraws (w : Word) : (s.setSp w).cycleDraws = s.cycleDraws := rfl

/-! ## `setStackSlot` -/

@[simp] theorem State.setStackSlot_v (k w : Word) : (s.setStackSlot k w).v = s.v := rfl
@[simp] theorem State.setStackSlot_i (k w : Word) : (s.setStackSlot k w).i = s.i := rfl
@[simp] theorem State.setStackSlot_pc (k w : Word) : (s.setStackSlot k w).pc = s.pc := rfl
@[simp] theorem State.setStackSlot_sp (k w : Word) : (s.setStackSlot k w).sp = s.sp := rfl
@[simp] theorem State.setStackSlot_stack (k w : Word) : (s.setStackSlot k w).stack = s.stack.set (k.toNat % 16) w (Nat.mod_lt _ (by decide)) := rfl
@[simp] theorem State.setStackSlot_opcode (k w : Word) : (s.setStackSlot k w).opcode = s.opcode := rfl
@[simp] theorem State.setStackSlot_keypad (k w : Word) : (s.setStackSlot k w).keypad = s.keypad := rfl
@[simp] theorem State.setStackSlot_fxoaState (k w : Word) : (s.setStackSlot k w).fxoaState = s.fxoaState := rfl
@[simp] theorem State.setStackSlot_delayTimer (k w : Word) : (s.setStackSlot k w).delayTimer = s.delayTimer := rfl
@[simp] theorem State.setStackSlot_soundTimer (k w : Word) : (s.setStackSlot k w).soundTimer = s.soundTimer := rfl
@[simp] theorem State.setStackSlot_cpuState (k w : Word) : (s.setStackSlot k w).cpuState = s.cpuState := rfl
@[simp] theorem State.setStackSlot_cycles (k w : Word) : (s.setStackSlot k w).cycles = s.cycles := rfl
@[simp] theorem State.setStackSlot_quirks (k w : Word) : (s.setStackSlot k w).quirks = s.quirks := rfl
@[simp] theorem State.setStackSlot_ram (k w : Word) : (s.setStackSlot k w).ram = s.ram := rfl
@[simp] theorem State.setStackSlot_display (k w : Word) : (s.setStackSlot k w).display = s.display := rfl
@[simp] theorem State.setStackSlot_drawDisplay (k w : Word) : (s.setStackSlot k w).drawDisplay = s.drawDisplay := rfl
@[simp] theorem State.setStackSlot_params (k w : Word) : (s.setStackSlot k w).params = s.params := rfl
@[simp] theorem State.setStackSlot_draws (k w : Word) : (s.setStackSlot k w).draws = s.draws := rfl
@[simp] theorem State.setStackSlot_cycleDraws (k w : Word) : (s.setStackSlot k w).cycleDraws = s.cycleDraws := rfl

/-! ## `setOpcode` -/

@[simp] theorem State.setOpcode_v (w : Word) : (s.setOpcode w).v = s.v := rfl
@[simp] theorem State.setOpcode_i (w : Word) : (s.setOpcode w).i = s.i := rfl
@[simp] theorem State.setOpcode_pc (w : Word) : (s.setOpcode w).pc = s.pc := rfl
@[simp] theorem State.setOpcode_sp (w : Word) : (s.setOpcode w).sp = s.sp := rfl
@[simp] theorem State.setOpcode_stack (w : Word) : (s.setOpcode w).stack = s.stack := rfl
@[simp] theorem State.setOpcode_opcode (w : Word) : (s.setOpcode w).opcode = w := rfl
@[simp] theorem State.setOpcode_keypad (w : Word) : (s.setOpcode w).keypad = s.keypad := rfl
@[simp] theorem State.setOpcode_fxoaState (w : Word) : (s.setOpcode w).fxoaState = s.fxoaState := rfl
@[simp] theorem State.setOpcode_delayTimer (w : Word) : (s.setOpcode w).delayTimer = s.delayTimer := rfl
@[simp] theorem State.setOpcode_soundTimer (w : Word) : (s.setOpcode w).soundTimer = s.soundTimer := rfl
@[simp] theorem State.setOpcode_cpuState (w : Word) : (s.setOpcode w).cpuState = s.cpuState := rfl
@[simp] theorem State.setOpcode_cycles (w : Word) : (s.setOpcode w).cycles = s.cycles := rfl
@[simp] theorem State.setOpcode_quirks (w : Word) : (s.setOpcode w).quirks = s.quirks := rfl
@[simp] theorem State.setOpcode_ram (w : Word) : (s.setOpcode w).ram = s.ram := rfl
@[simp] theorem State.setOpcode_display (w : Word) : (s.setOpcode w).display = s.display := rfl
@[simp] theorem State.setOpcode_drawDisplay (w : Word) : (s.setOpcode w).drawDisplay = s.drawDisplay := rfl
@[simp] theorem State.setOpcode_params (w : Word) : (s.setOpcode w).params = s.params := rfl
@[simp] theorem State.setOpcode_draws (w : Word) : (s.setOpcode w).draws = s.draws := rfl
@[simp] theorem State.setOpcode_cycleDraws (w : Word) : (s.setOpcode w).cycleDraws = s.cycleDraws := rfl

/-! ## `setFxoa` -/

@[simp] theorem State.setFxoa_v (w : Word) : (s.setFxoa w).v = s.v := rfl
@[simp] theorem State.setFxoa_i (w : Word) : (s.setFxoa w).i = s.i := rfl
@[simp] theorem State.setFxoa_pc (w : Word) : (s.setFxoa w).pc = s.pc := rfl
@[simp] theorem State.setFxoa_sp (w : Word) : (s.setFxoa w).sp = s.sp := rfl
@[simp] theorem State.setFxoa_stack (w : Word) : (s.setFxoa w).stack = s.stack := rfl
@[simp] theorem State.setFxoa_opcode (w : Word) : (s.setFxoa w).opcode = s.opcode := rfl
@[simp] theorem State.setFxoa_keypad (w : Word) : (s.setFxoa w).keypad = s.keypad := rfl
@[simp] theorem State.setFxoa_fxoaState (w : Word) : (s.setFxoa w).fxoaState = w := rfl
@[simp] theorem State.setFxoa_delayTimer (w : Word) : (s.setFxoa w).delayTimer = s.delayTimer := rfl
@[simp] theorem State.setFxoa_soundTimer (w : Word) : (s.setFxoa w).soundTimer = s.soundTimer := rfl
@[simp] theorem State.setFxoa_cpuState (w : Word) : (s.setFxoa w).cpuState = s.cpuState := rfl
@[simp] theorem State.setFxoa_cycles (w : Word) : (s.setFxoa w).cycles = s.cycles := rfl
@[simp] theorem State.setFxoa_quirks (w : Word) : (s.setFxoa w).quirks = s.quirks := rfl
@[simp] theorem State.setFxoa_ram (w : Word) : (s.setFxoa w).ram = s.ram := rfl
@[simp] theorem State.setFxoa_display (w : Word) : (s.setFxoa w).display = s.display := rfl
@[simp] theorem State.setFxoa_drawDisplay (w : Word) : (s.setFxoa w).drawDisplay = s.drawDisplay := rfl
@[simp] theorem State.setFxoa_params (w : Word) : (s.setFxoa w).params = s.params := rfl
@[simp] theorem State.setFxoa_draws (w : Word) : (s.setFxoa w).draws = s.draws := rfl
@[simp] theorem State.setFxoa_cycleDraws (w : Word) : (s.setFxoa w).cycleDraws = s.cycleDraws := rfl

/-! ## `setDelay` -/

@[simp] theorem State.setDelay_v (b : Byte) : (s.setDelay b).v = s.v := rfl
@[simp] theorem State.setDelay_i (b : Byte) : (s.setDelay b).i = s.i := rfl
@[simp] theorem State.setDelay_pc (b : Byte) : (s.setDelay b).pc = s.pc := rfl
@[simp] theorem State.setDelay_sp (b : Byte) : (s.setDelay b).sp = s.sp := rfl
@[simp] theorem State.setDelay_stack (b : Byte) : (s.setDelay b).stack = s.stack := rfl
@[simp] theorem State.setDelay_opcode (b : Byte) : (s.setDelay b).opcode = s.opcode := rfl
@[simp] theorem State.setDelay_keypad (b : Byte) : (s.setDelay b).keypad = s.keypad := rfl
@[simp] theorem State.setDelay_fxoaState (b : Byte) : (s.setDelay b).fxoaState = s.fxoaState := rfl
@[simp] theorem State.setDelay_delayTimer (b : Byte) : (s.setDelay b).delayTimer = b := rfl
@[simp] theorem State.setDelay_soundTimer (b : Byte) : (s.setDelay b).soundTimer = s.soundTimer := rfl
@[simp] theorem State.setDelay_cpuState (b : Byte) : (s.setDelay b).cpuState = s.cpuState := rfl
@[simp] theorem State.setDelay_cycles (b : Byte) : (s.setDelay b).cycles = s.cycles := rfl
@[simp] theorem State.setDelay_quirks (b : Byte) : (s.setDelay b).quirks = s.quirks := rfl
@[simp] theorem State.setDelay_ram (b : Byte) : (s.setDelay b).ram = s.ram := rfl
@[simp] theorem State.setDelay_display (b : Byte) : (s.setDelay b).display = s.display := rfl
@[simp] theorem State.setDelay_drawDisplay (b : Byte) : (s.setDelay b).drawDisplay = s.drawDisplay := rfl
@[simp] theorem State.setDelay_params (b : Byte) : (s.setDelay b).params = s.params := rfl
@[simp] theorem State.setDelay_draws (b : Byte) : (s.setDelay b).draws = s.draws := rfl
@[simp] theorem State.setDelay_cycleDraws (b : Byte) : (s.setDelay b).cycleDraws = s.cycleDraws := rfl

/-! ## `setSound` -/

@[simp] theorem State.setSound_v (b : Byte) : (s.setSound b).v = s.v := rfl
@[simp] theorem State.setSound_i (b : Byte) : (s.setSound b).i = s.i := rfl
@[simp] theorem State.setSound_pc (b : Byte) : (s.setSound b).pc = s.pc := rfl
@[simp] theorem State.setSound_sp (b : Byte) : (s.setSound b).sp = s.sp := rfl
@[simp] theorem State.setSound_stack (b : Byte) : (s.setSound b).stack = s.stack := rfl
@[simp] theorem State.setSound_opcode (b : Byte) : (s.setSound b).opcode = s.opcode := rfl
@[simp] theorem State.setSound_keypad (b : Byte) : (s.setSound b).keypad = s.keypad := rfl
@[simp] theorem State.setSound_fxoaState (b : Byte) : (s.setSound b).fxoaState = s.fxoaState := rfl
@[simp] theorem State.setSound_delayTimer (b : Byte) : (s.setSound b).delayTimer = s.delayTimer := rfl
@[simp] theorem State.setSound_soundTimer (b : Byte) : (s.setSound b).soundTimer = b := rfl
@[simp] theorem State.setSound_cpuState (b : Byte) : (s.setSound b).cpuState = s.cpuState := rfl
@[simp] theorem State.setSound_cycles (b : Byte) : (s.setSound b).cycles = s.cycles := rfl
@[simp] theorem State.setSound_quirks (b : Byte) : (s.setSound b).quirks = s.quirks := rfl
@[simp] theorem State.setSound_ram (b : Byte) : (s.setSound b).ram = s.ram := rfl
@[simp] theorem State.setSound_display (b : Byte) : (s.setSound b).display = s.display := rfl
@[simp] theorem State.setSound_drawDisplay (b : Byte) : (s.setSound b).drawDisplay = s.drawDisplay := rfl
@[simp] theorem State.setSound_params (b : Byte) : (s.setSound b).params = s.params := rfl
@[simp] theorem State.setSound_draws (b : Byte) : (s.setSound b).draws = s.draws := rfl
@[simp] theorem State.setSound_cycleDraws (b : Byte) : (s.setSound b).cycleDraws = s.cycleDraws := rfl

/-! ## `setDrawDisplay` -/

@[simp] theorem State.setDrawDisplay_v (b : Byte) : (s.setDrawDisplay b).v = s.v := rfl
@[simp] theorem State.setDrawDisplay_i (b : Byte) : (s.setDrawDisplay b).i = s.i := rfl
@[simp] theorem State.setDrawDisplay_pc (b : Byte) : (s.setDrawDisplay b).pc = s.pc := rfl
@[simp] theorem State.setDrawDisplay_sp (b : Byte) : (s.setDrawDisplay b).sp = s.sp := rfl
@[simp] theorem State.setDrawDisplay_stack (b : Byte) : (s.setDrawDisplay b).stack = s.stack := rfl
@[simp] theorem State.setDrawDisplay_opcode (b : Byte) : (s.setDrawDisplay b).opcode = s.opcode := rfl
@[simp] theorem State.setDrawDisplay_keypad (b : Byte) : (s.setDrawDisplay b).keypad = s.keypad := rfl
@[simp] theorem State.setDrawDisplay_fxoaState (b : Byte) : (s.setDrawDisplay b).fxoaState = s.fxoaState := rfl
@[simp] theorem State.setDrawDisplay_delayTimer (b : Byte) : (s.setDrawDisplay b).delayTimer = s.delayTimer := rfl
@[simp] theorem State.setDrawDisplay_soundTimer (b : Byte) : (s.setDrawDisplay b).soundTimer = s.soundTimer := rfl
@[simp] theorem State.setDrawDisplay_cpuState (b : Byte) : (s.setDrawDisplay b).cpuState = s.cpuState := rfl
@[simp] theorem State.setDrawDisplay_cycles (b : Byte) : (s.setDrawDisplay b).cycles = s.cycles := rfl
@[simp] theorem State.setDrawDisplay_quirks (b : Byte) : (s.setDrawDisplay b).quirks = s.quirks := rfl
@[simp] theorem State.setDrawDisplay_ram (b : Byte) : (s.setDrawDisplay b).ram = s.ram := rfl
@[simp] theorem State.setDrawDisplay_display (b : Byte) : (s.setDrawDisplay b).display = s.display := rfl
@[simp] theorem State.setDrawDisplay_drawDisplay (b : Byte) : (s.setDrawDisplay b).drawDisplay = b := rfl
@[simp] theorem State.setDrawDisplay_params (b : Byte) : (s.setDrawDisplay b).params = s.params := rfl
@[simp] theorem State.setDrawDisplay_draws (b : Byte) : (s.setDrawDisplay b).draws = s.draws := rfl
@[simp] theorem State.setDrawDisplay_cycleDraws (b : Byte) : (s.setDrawDisplay b).cycleDraws = s.cycleDraws := rfl

/-! ## `setCpu` -/

@[simp] theorem State.setCpu_v (c : CpuState) : (s.setCpu c).v = s.v := rfl
@[simp] theorem State.setCpu_i (c : CpuState) : (s.setCpu c).i = s.i := rfl
@[simp] theorem State.setCpu_pc (c : CpuState) : (s.setCpu c).pc = s.pc := rfl
@[simp] theorem State.setCpu_sp (c : CpuState) : (s.setCpu c).sp = s.sp := rfl
@[simp] theorem State.setCpu_stack (c : CpuState) : (s.setCpu c).stack = s.stack := rfl
@[simp] theorem State.setCpu_opcode (c : CpuState) : (s.setCpu c).opcode = s.opcode := rfl
@[simp] theorem State.setCpu_keypad (c : CpuState) : (s.setCpu c).keypad = s.keypad := rfl
@[simp] theorem State.setCpu_fxoaState (c : CpuState) : (s.setCpu c).fxoaState = s.fxoaState := rfl
@[simp] theorem State.setCpu_delayTimer (c : CpuState) : (s.setCpu c).delayTimer = s.delayTimer := rfl
@[simp] theorem State.setCpu_soundTimer (c : CpuState) : (s.setCpu c).soundTimer = s.soundTimer := rfl
@[simp] theorem State.setCpu_cpuState (c : CpuState) : (s.setCpu c).cpuState = c := rfl
@[simp] theorem State.setCpu_cycles (c : CpuState) : (s.setCpu c).cycles = s.cycles := rfl
@[simp] theorem State.setCpu_quirks (c : CpuState) : (s.setCpu c).quirks = s.quirks := rfl
@[simp] theorem State.setCpu_ram (c : CpuState) : (s.setCpu c).ram = s.ram := rfl
@[simp] theorem State.setCpu_display (c : CpuState) : (s.setCpu c).display = s.display := rfl
@[simp] theorem State.setCpu_drawDisplay (c : CpuState) : (s.setCpu c).drawDisplay = s.drawDisplay := rfl
@[simp] theorem State.setCpu_params (c : CpuState) : (s.setCpu c).params = s.params := rfl
@[simp] theorem State.setCpu_draws (c : CpuState) : (s.setCpu c).draws = s.draws := rfl
@[simp] theorem State.setCpu_cycleDraws (c : CpuState) : (s.setCpu c).cycleDraws = s.cycleDraws := rfl

/-! ## `setDisplay` -/

@[simp] theorem State.setDisplay_v (d : Display) : (s.setDisplay d).v = s.v := rfl
@[simp] theorem State.setDisplay_i (d : Display) : (s.setDisplay d).i = s.i := rfl
@[simp] theorem State.setDisplay_pc (d : Display) : (s.setDisplay d).pc = s.pc := rfl
@[simp] theorem State.setDisplay_sp (d : Display) : (s.setDisplay d).sp = s.sp := rfl
@[simp] theorem State.setDisplay_stack (d : Display) : (s.setDisplay d).stack = s.stack := rfl
@[simp] theorem State.setDisplay_opcode (d : Display) : (s.setDisplay d).opcode = s.opcode := rfl
@[simp] theorem State.setDisplay_keypad (d : Display) : (s.setDisplay d).keypad = s.keypad := rfl
@[simp] theorem State.setDisplay_fxoaState (d : Display) : (s.setDisplay d).fxoaState = s.fxoaState := rfl
@[simp] theorem State.setDisplay_delayTimer (d : Display) : (s.setDisplay d).delayTimer = s.delayTimer := rfl
@[simp] theorem State.setDisplay_soundTimer (d : Display) : (s.setDisplay d).soundTimer = s.soundTimer := rfl
@[simp] theorem State.setDisplay_cpuState (d : Display) : (s.setDisplay d).cpuState = s.cpuState := rfl
@[simp] theorem State.setDisplay_cycles (d : Display) : (s.setDisplay d).cycles = s.cycles := rfl
@[simp] theorem State.setDisplay_quirks (d : Display) : (s.setDisplay d).quirks = s.quirks := rfl
@[simp] theorem State.setDisplay_ram (d : Display) : (s.setDisplay d).ram = s.ram := rfl
@[simp] theorem State.setDisplay_display (d : Display) : (s.setDisplay d).display = d := rfl
@[simp] theorem State.setDisplay_drawDisplay (d : Display) : (s.setDisplay d).drawDisplay = s.drawDisplay := rfl
@[simp] theorem State.setDisplay_params (d : Display) : (s.setDisplay d).params = s.params := rfl
@[simp] theorem State.setDisplay_draws (d : Display) : (s.setDisplay d).draws = s.draws := rfl
@[simp] theorem State.setDisplay_cycleDraws (d : Display) : (s.setDisplay d).cycleDraws = s.cycleDraws := rfl

/-! ## `memWrite` -/

@[simp] theorem State.memWrite_v (a : Nat) (b : Byte) : (s.memWrite a b).v = s.v := rfl
@[simp] theorem State.memWrite_i (a : Nat) (b : Byte) : (s.memWrite a b).i = s.i := rfl
@[simp] theorem State.memWrite_pc (a : Nat) (b : Byte) : (s.memWrite a b).pc = s.pc := rfl
@[simp] theorem State.memWrite_sp (a : Nat) (b : Byte) : (s.memWrite a b).sp = s.sp := rfl
@[simp] theorem State.memWrite_stack (a : Nat) (b : Byte) : (s.memWrite a b).stack = s.stack := rfl
@[simp] theorem State.memWrite_opcode (a : Nat) (b : Byte) : (s.memWrite a b).opcode = s.opcode := rfl
@[simp] theorem State.memWrite_keypad (a : Nat) (b : Byte) : (s.memWrite a b).keypad = s.keypad := rfl
@[simp] theorem State.memWrite_fxoaState (a : Nat) (b : Byte) : (s.memWrite a b).fxoaState = s.fxoaState := rfl
@[simp] theorem State.memWrite_delayTimer (a : Nat) (b : Byte) : (s.memWrite a b).delayTimer = s.delayTimer := rfl
@[simp] theorem State.memWrite_soundTimer (a : Nat) (b : Byte) : (s.memWrite a b).soundTimer = s.soundTimer := rfl
@[simp] theorem State.memWrite_cpuState (a : Nat) (b : Byte) : (s.memWrite a b).cpuState = s.cpuState := rfl
@[simp] theorem State.memWrite_cycles (a : Nat) (b : Byte) : (s.memWrite a b).cycles = s.cycles := rfl
@[simp] theorem State.memWrite_quirks (a : Nat) (b : Byte) : (s.memWrite a b).quirks = s.quirks := rfl
@[simp] theorem State.memWrite_ram (a : Nat) (b : Byte) : (s.memWrite a b).ram = Memory.set s.params.font s.ram (a % Config.ramSize) b := rfl
@[simp] theorem State.memWrite_display (a : Nat) (b : Byte) : (s.memWrite a b).display = s.display := rfl
@[simp] theorem State.memWrite_drawDisplay (a : Nat) (b : Byte) : (s.memWrite a b).drawDisplay = s.drawDisplay := rfl
@[simp] theorem State.memWrite_params (a : Nat) (b : Byte) : (s.memWrite a b).params = s.params := rfl
@[simp] theorem State.memWrite_draws (a : Nat) (b : Byte) : (s.memWrite a b).draws = s.draws := rfl
@[simp] theorem State.memWrite_cycleDraws (a : Nat) (b : Byte) : (s.memWrite a b).cycleDraws = s.cycleDraws := rfl

/-! ## `countDraw` -/

@[simp] theorem State.countDraw_v : (s.countDraw).v = s.v := rfl
@[simp] theorem State.countDraw_i : (s.countDraw).i = s.i := rfl
@[simp] theorem State.countDraw_pc : (s.countDraw).pc = s.pc := rfl
@[simp] theorem State.countDraw_sp : (s.countDraw).sp = s.sp := rfl
@[simp] theorem State.countDraw_stack : (s.countDraw).stack = s.stack := rfl
@[simp] theorem State.countDraw_opcode : (s.countDraw).opcode = s.opcode := rfl
@[simp] theorem State.countDraw_keypad : (s.countDraw).keypad = s.keypad := rfl
@[simp] theorem State.countDraw_fxoaState : (s.countDraw).fxoaState = s.fxoaState := rfl
@[simp] theorem State.countDraw_delayTimer : (s.countDraw).delayTimer = s.delayTimer := rfl
@[simp] theorem State.countDraw_soundTimer : (s.countDraw).soundTimer = s.soundTimer := rfl
@[simp] theorem State.countDraw_cpuState : (s.countDraw).cpuState = s.cpuState := rfl
@[simp] theorem State.countDraw_cycles : (s.countDraw).cycles = s.cycles := rfl
@[simp] theorem State.countDraw_quirks : (s.countDraw).quirks = s.quirks := rfl
@[simp] theorem State.countDraw_ram : (s.countDraw).ram = s.ram := rfl
@[simp] theorem State.countDraw_display : (s.countDraw).display = s.display := rfl
@[simp] theorem State.countDraw_drawDisplay : (s.countDraw).drawDisplay = s.drawDisplay := rfl
@[simp] theorem State.countDraw_params : (s.countDraw).params = s.params := rfl
@[simp] theorem State.countDraw_draws : (s.countDraw).draws = s.draws + 1 := rfl
@[simp] theorem State.countDraw_cycleDraws : (s.countDraw).cycleDraws = s.cycleDraws := rfl

/-! ## `settleCycles` -/

@[simp] theorem State.settleCycles_v : (s.settleCycles).v = s.v := rfl
@[simp] theorem State.settleCycles_i : (s.settleCycles).i = s.i := rfl
@[simp] theorem State.settleCycles_pc : (s.settleCycles).pc = s.pc := rfl
@[simp] theorem State.settleCycles_sp : (s.settleCycles).sp = s.sp := rfl
@[simp] theorem State.settleCycles_stack : (s.settleCycles).stack = s.stack := rfl
@[simp] theorem State.settleCycles_opcode : (s.settleCycles).opcode = s.opcode := rfl
@[simp] theorem State.settleCycles_keypad : (s.settleCycles).keypad = s.keypad := rfl
@[simp] theorem State.settleCycles_fxoaState : (s.settleCycles).fxoaState = s.fxoaState := rfl
@[simp] theorem State.settleCycles_delayTimer : (s.settleCycles).delayTimer = s.delayTimer := rfl
@[simp] theorem State.settleCycles_soundTimer : (s.settleCycles).soundTimer = s.soundTimer := rfl
@[simp] theorem State.settleCycles_cpuState : (s.settleCycles).cpuState = s.cpuState := rfl
@[simp] theorem State.settleCycles_cycles : (s.settleCycles).cycles = Config.cyclesAfter s.cycleDraws := rfl
@[simp] theorem State.settleCycles_quirks : (s.settleCycles).quirks = s.quirks := rfl
@[simp] theorem State.settleCycles_ram : (s.settleCycles).ram = s.ram := rfl
@[simp] theorem State.settleCycles_display : (s.settleCycles).display = s.display := rfl
@[simp] theorem State.settleCycles_drawDisplay : (s.settleCycles).drawDisplay = s.drawDisplay := rfl
@[simp] theorem State.settleCycles_params : (s.settleCycles).params = s.params := rfl
@[simp] theorem State.settleCycles_draws : (s.settleCycles).draws = s.draws := rfl
@[simp] theorem State.settleCycles_cycleDraws : (s.settleCycles).cycleDraws = s.cycleDraws + 1 := rfl

/-! ## The reads after an update that does not touch what they read -/

@[simp] theorem State.memRead_setReg (x : Reg) (b : Byte) (addr : Nat) : (s.setReg x b).memRead addr = s.memRead addr := rfl
@[simp] theorem State.stackSlot_setReg (x : Reg) (b : Byte) (j : Word) : (s.setReg x b).stackSlot j = s.stackSlot j := rfl
@[simp] theorem State.quirk_setReg (x : Reg) (b : Byte) (q : Quirk) : (s.setReg x b).quirk q = s.quirk q := rfl
@[simp] theorem State.reg_setI (w : Word) (r : Reg) : (s.setI w).reg r = s.reg r := rfl
@[simp] theorem State.memRead_setI (w : Word) (addr : Nat) : (s.setI w).memRead addr = s.memRead addr := rfl
@[simp] theorem State.stackSlot_setI (w : Word) (j : Word) : (s.setI w).stackSlot j = s.stackSlot j := rfl
@[simp] theorem State.quirk_setI (w : Word) (q : Quirk) : (s.setI w).quirk q = s.quirk q := rfl
@[simp] theorem State.reg_setPc (w : Word) (r : Reg) : (s.setPc w).reg r = s.reg r := rfl
@[simp] theorem State.memRead_setPc (w : Word) (addr : Nat) : (s.setPc w).memRead addr = s.memRead addr := rfl
@[simp] theorem State.stackSlot_setPc (w : Word) (j : Word) : (s.setPc w).stackSlot j = s.stackSlot j := rfl
@[simp] theorem State.quirk_setPc (w : Word) (q : Quirk) : (s.setPc w).quirk q = s.quirk q := rfl
@[simp] theorem State.reg_advance (r : Reg) : (s.advance).reg r = s.reg r := rfl
@[simp] theorem State.memRead_advance (addr : Nat) : (s.advance).memRead addr = s.memRead addr := rfl
@[simp] theorem State.stackSlot_advance (j : Word) : (s.advance).stackSlot j = s.stackSlot j := rfl
@[simp] theorem State.quirk_advance (q : Quirk) : (s.advance).quirk q = s.quirk q := rfl
@[simp] theorem State.reg_setSp (w : Word) (r : Reg) : (s.setSp w).reg r = s.reg r := rfl
@[simp] theorem State.memRead_setSp (w : Word) (addr : Nat) : (s.setSp w).memRead addr = s.memRead addr := rfl
@[simp] theorem State.stackSlot_setSp (w : Word) (j : Word) : (s.setSp w).stackSlot j = s.stackSlot j := rfl
@[simp] theorem State.quirk_setSp (w : Word) (q : Quirk) : (s.setSp w).quirk q = s.quirk q := rfl
@[simp] theorem State.reg_setStackSlot (k w : Word) (r : Reg) : (s.setStackSlot k w).reg r = s.reg r := rfl
@[simp] theorem State.memRead_setStackSlot (k w : Word) (addr : Nat) : (s.setStackSlot k w).memRead addr = s.memRead addr := rfl
@[simp] theorem State.quirk_setStackSlot (k w : Word) (q : Quirk) : (s.setStackSlot k w).quirk q = s.quirk q := rfl
@[simp] theorem State.reg_setOpcode (w : Word) (r : Reg) : (s.setOpcode w).reg r = s.reg r := rfl
@[simp] theorem State.memRead_setOpcode (w : Word) (addr : Nat) : (s.setOpcode w).memRead addr = s.memRead addr := rfl
@[simp] theorem State.stackSlot_setOpcode (w : Word) (j : Word) : (s.setOpcode w).stackSlot j = s.stackSlot j := rfl
@[simp] theorem State.quirk_setOpcode (w : Word) (q : Quirk) : (s.setOpcode w).quirk q = s.quirk q := rfl
@[simp] theorem State.reg_setFxoa (w : Word) (r : Reg) : (s.setFxoa w).reg r = s.reg r := rfl
@[simp] theorem State.memRead_setFxoa (w : Word) (addr : Nat) : (s.setFxoa w).memRead addr = s.memRead addr := rfl
@[simp] theorem State.stackSlot_setFxoa (w : Word) (j : Word) : (s.setFxoa w).stackSlot j = s.stackSlot j := rfl
@[simp] theorem State.quirk_setFxoa (w : Word) (q : Quirk) : (s.setFxoa w).quirk q = s.quirk q := rfl
@[simp] theorem State.reg_setDelay (b : Byte) (r : Reg) : (s.setDelay b).reg r = s.reg r := rfl
@[simp] theorem State.memRead_setDelay (b : Byte) (addr : Nat) : (s.setDelay b).memRead addr = s.memRead addr := rfl
@[simp] theorem State.stackSlot_setDelay (b : Byte) (j : Word) : (s.setDelay b).stackSlot j = s.stackSlot j := rfl
@[simp] theorem State.quirk_setDelay (b : Byte) (q : Quirk) : (s.setDelay b).quirk q = s.quirk q := rfl
@[simp] theorem State.reg_setSound (b : Byte) (r : Reg) : (s.setSound b).reg r = s.reg r := rfl
@[simp] theorem State.memRead_setSound (b : Byte) (addr : Nat) : (s.setSound b).memRead addr = s.memRead addr := rfl
@[simp] theorem State.stackSlot_setSound (b : Byte) (j : Word) : (s.setSound b).stackSlot j = s.stackSlot j := rfl
@[simp] theorem State.quirk_setSound (b : Byte) (q : Quirk) : (s.setSound b).quirk q = s.quirk q := rfl
@[simp] theorem State.reg_setDrawDisplay (b : Byte) (r : Reg) : (s.setDrawDisplay b).reg r = s.reg r := rfl
@[simp] theorem State.memRead_setDrawDisplay (b : Byte) (addr : Nat) : (s.setDrawDisplay b).memRead addr = s.memRead addr := rfl
@[simp] theorem State.stackSlot_setDrawDisplay (b : Byte) (j : Word) : (s.setDrawDisplay b).stackSlot j = s.stackSlot j := rfl
@[simp] theorem State.quirk_setDrawDisplay (b : Byte) (q : Quirk) : (s.setDrawDisplay b).quirk q = s.quirk q := rfl
@[simp] theorem State.reg_setCpu (c : CpuState) (r : Reg) : (s.setCpu c).reg r = s.reg r := rfl
@[simp] theorem State.memRead_setCpu (c : CpuState) (addr : Nat) : (s.setCpu c).memRead addr = s.memRead addr := rfl
@[simp] theorem State.stackSlot_setCpu (c : CpuState) (j : Word) : (s.setCpu c).stackSlot j = s.stackSlot j := rfl
@[simp] theorem State.quirk_setCpu (c : CpuState) (q : Quirk) : (s.setCpu c).quirk q = s.quirk q := rfl
@[simp] theorem State.reg_setDisplay (d : Display) (r : Reg) : (s.setDisplay d).reg r = s.reg r := rfl
@[simp] theorem State.memRead_setDisplay (d : Display) (addr : Nat) : (s.setDisplay d).memRead addr = s.memRead addr := rfl
@[simp] theorem State.stackSlot_setDisplay (d : Display) (j : Word) : (s.setDisplay d).stackSlot j = s.stackSlot j := rfl
@[simp] theorem State.quirk_setDisplay (d : Display) (q : Quirk) : (s.setDisplay d).quirk q = s.quirk q := rfl
@[simp] theorem State.reg_memWrite (a : Nat) (b : Byte) (r : Reg) : (s.memWrite a b).reg r = s.reg r := rfl
@[simp] theorem State.stackSlot_memWrite (a : Nat) (b : Byte) (j : Word) : (s.memWrite a b).stackSlot j = s.stackSlot j := rfl
@[simp] theorem State.quirk_memWrite (a : Nat) (b : Byte) (q : Quirk) : (s.memWrite a b).quirk q = s.quirk q := rfl
@[simp] theorem State.reg_countDraw (r : Reg) : (s.countDraw).reg r = s.reg r := rfl
@[simp] theorem State.memRead_countDraw (addr : Nat) : (s.countDraw).memRead addr = s.memRead addr := rfl
@[simp] theorem State.stackSlot_countDraw (j : Word) : (s.countDraw).stackSlot j = s.stackSlot j := rfl
@[simp] theorem State.quirk_countDraw (q : Quirk) : (s.countDraw).quirk q = s.quirk q := rfl
@[simp] theorem State.reg_settleCycles (r : Reg) : (s.settleCycles).reg r = s.reg r := rfl
@[simp] theorem State.memRead_settleCycles (addr : Nat) : (s.settleCycles).memRead addr = s.memRead addr := rfl
@[simp] theorem State.stackSlot_settleCycles (j : Word) : (s.settleCycles).stackSlot j = s.stackSlot j := rfl
@[simp] theorem State.quirk_settleCycles (q : Quirk) : (s.settleCycles).quirk q = s.quirk q := rfl

end Sys2Proof.Machine
end

