-- ==== Sys2Proof/Laws/Memory.lean ====
section
/-!
SUPPORT. The laws of memory: a byte written is the byte read back, every other byte is left alone, and every operation
keeps the canonical form.
-/

namespace Sys2Proof.Machine

/-! ## The list of cells -/

theorem lookup_none_of_lt {m : Memory} {a : Nat} (h : ∀ c ∈ m, a < c.1) : m.lookup a = none := by
  induction m with
  | nil => rfl
  | cons c m ih =>
    have hc : (a == c.1) = false := beq_eq_false_iff_ne.2 (Nat.ne_of_lt (h c List.mem_cons_self))
    rw [List.lookup_cons, hc]
    exact ih fun d hd => h d (List.mem_cons_of_mem _ hd)

theorem lookup_some_mem {m : Memory} {a : Nat} {b : Byte} (h : m.lookup a = some b) : (a, b) ∈ m := by
  induction m with
  | nil => simp at h
  | cons c m ih =>
    rw [List.lookup_cons] at h
    split at h
    · next hc => simp at hc h; subst hc h; simp
    · exact List.mem_cons_of_mem _ (ih h)

/-- A write leaves every other byte alone. -/
theorem Memory.get_set_other (font : Font) (m : Memory) {a k : Nat} (b : Byte) (h : k ≠ a) :
    Memory.get font (Memory.set font m a b) k = Memory.get font m k := by
  unfold Memory.get
  congr 1
  induction m with
  | nil => unfold Memory.set; split <;> simp [h]
  | cons c m ih =>
    obtain ⟨c, d⟩ := c
    have hk : (k == a) = false := by simpa using h
    unfold Memory.set
    split
    · split <;> simp [List.lookup_cons, hk]
    · split
      · next hac => subst hac; split <;> simp [List.lookup_cons, hk]
      · simp only [List.lookup_cons, ih]

/-- A byte written is the byte read back. -/
theorem Memory.get_set_same {font : Font} {m : Memory} (hp : m.Pairwise fun c d => c.1 < d.1) (a : Nat)
    (b : Byte) : Memory.get font (Memory.set font m a b) a = b := by
  unfold Memory.get
  induction m with
  | nil => unfold Memory.set; split <;> simp_all
  | cons c m ih =>
    obtain ⟨c, d⟩ := c
    rw [List.pairwise_cons] at hp
    have hgt : ∀ e ∈ m, c < e.1 := fun e he => hp.1 e he
    unfold Memory.set
    split
    · next hlt =>
      split
      · next hb =>
        have : List.lookup a ((c, d) :: m) = none :=
          lookup_none_of_lt (by intro e he; rcases List.mem_cons.1 he with rfl | he; exacts [hlt, hlt.trans (hgt e he)])
        simp [this, hb]
      · simp
    · split
      · next hac =>
        subst hac
        split
        · next hb => rw [lookup_none_of_lt hgt]; simp [hb]
        · simp
      · next hne =>
        have : (a == c) = false := by simpa using hne
        simp only [List.lookup_cons, this]
        exact ih hp.2

theorem Memory.mem_set {font : Font} {m : Memory} {a : Nat} {b : Byte} {c : Host.Cell}
    (h : c ∈ Memory.set font m a b) : c ∈ m ∨ (c = (a, b) ∧ b ≠ unlisted font a) := by
  induction m with
  | nil => unfold Memory.set at h; split at h <;> simp_all
  | cons d m ih =>
    obtain ⟨d, e⟩ := d
    unfold Memory.set at h
    split at h
    · split at h <;> simp_all
      tauto
    · split at h
      · split at h <;> simp_all
        tauto
      · rcases List.mem_cons.1 h with rfl | h
        · simp
        · rcases ih h with h | h <;> simp [h]

/-- A write keeps the canonical form. -/
theorem Memory.set_wf {font : Font} {m : Memory} (hm : Memory.wf font m) {a : Nat} (ha : a < Config.ramSize)
    (b : Byte) : Memory.wf font (Memory.set font m a b) := by
  refine ⟨?_, ?_⟩
  · obtain ⟨hp, -⟩ := hm
    induction m with
    | nil => unfold Memory.set; split <;> simp
    | cons c m ih =>
      obtain ⟨c, d⟩ := c
      have hq := List.pairwise_cons.1 hp
      unfold Memory.set
      split
      · next hlt =>
        split
        · exact hp
        · refine List.pairwise_cons.2 ⟨?_, hp⟩
          intro e he
          rcases List.mem_cons.1 he with rfl | he
          exacts [hlt, hlt.trans (hq.1 e he)]
      · split
        · next hac =>
          subst hac
          split
          · exact hq.2
          · exact List.pairwise_cons.2 ⟨hq.1, hq.2⟩
        · next hne =>
          refine List.pairwise_cons.2 ⟨?_, ih hq.2⟩
          intro e he
          rcases Memory.mem_set he with he | ⟨rfl, -⟩
          · exact hq.1 e he
          · simp; omega
  · intro c hc
    rcases Memory.mem_set hc with h | ⟨rfl, h⟩
    exacts [hm.2 c h, ⟨ha, h⟩]

theorem Memory.nil_wf (font : Font) : Memory.wf font [] := by simp [Memory.wf]

theorem Memory.filter_wf {font : Font} {m : Memory} (hm : Memory.wf font m) (p : Host.Cell → Bool) :
    Memory.wf font (m.filter p) :=
  ⟨hm.1.filter p, fun c hc => hm.2 c (List.mem_of_mem_filter hc)⟩

theorem Memory.zeros_wf (font : Font) : Memory.wf font (Memory.zeros font) := by
  refine ⟨?_, ?_⟩
  · unfold Memory.zeros
    rw [List.pairwise_filterMap]
    refine List.pairwise_lt_range.imp ?_
    intro a b hab c hc d hd
    split at hc <;> simp at hc
    split at hd <;> simp at hd
    subst hc hd
    exact hab
  · intro c hc
    simp only [Memory.zeros, List.mem_filterMap, List.mem_range] at hc
    obtain ⟨a, ha, h⟩ := hc
    split at h <;> simp at h
    next hne =>
    subst h
    exact ⟨by simp [Config.fontSize, Config.ramSize] at *; omega, fun h => hne h.symm⟩

theorem Memory.get_nil (font : Font) (a : Nat) : Memory.get font [] a = unlisted font a := rfl

theorem lookup_filterMap_range {f : Nat → Option Byte} (n a : Nat) :
    ((List.range n).filterMap fun k => (f k).map fun b => (k, b)).lookup a = if a < n then f a else none := by
  induction n with
  | zero => simp
  | succ n ih =>
    rw [List.range_succ, List.filterMap_append, List.lookup_append, ih]
    by_cases h : a < n
    · have h2 : a < n + 1 := by omega
      have h3 : (a == n) = false := by simp; omega
      cases hf : f n <;> simp [h, h2, hf, List.lookup_cons, h3]
    · by_cases h4 : a = n
      · subst h4
        cases hf : f a <;> simp [hf]
      · have h2 : ¬ a < n + 1 := by omega
        have h3 : (a == n) = false := by simpa using h4
        cases hf : f n <;> simp [h, h2, hf, List.lookup_cons, h3]

/-- `Memory.zeros` reads 0 everywhere. -/
theorem Memory.get_zeros (font : Font) (a : Nat) : Memory.get font (Memory.zeros font) a = 0 := by
  have hz : Memory.zeros font = (List.range Config.fontSize).filterMap
      fun k => (if unlisted font k = 0 then none else some (0 : Byte)).map fun b => (k, b) := by
    unfold Memory.zeros
    congr 1
    funext k
    split <;> rfl
  unfold Memory.get
  rw [hz, lookup_filterMap_range]
  by_cases h : a < Config.fontSize
  · rw [if_pos h]
    by_cases hu : unlisted font a = 0
    · rw [if_pos hu, Option.getD_none, hu]
    · rw [if_neg hu, Option.getD_some]
  · simp [h, unlisted]

theorem lookup_filter_key {m : Memory} (p : Nat → Bool) (a : Nat) :
    (m.filter fun c => p c.1).lookup a = if p a then m.lookup a else none := by
  induction m with
  | nil => simp
  | cons c m ih =>
    obtain ⟨c, d⟩ := c
    by_cases hac : a = c
    · subst hac
      by_cases hp : p a
      · simp [hp]
      · simp [hp, ih]
    · have : (a == c) = false := by simpa using hac
      by_cases hp : p c <;> simp [hp, List.lookup_cons, this, ih]

/-! ## `memRead` and `memWrite` -/

/-- Addresses count mod 4096 (spec/20_memory.md R54). -/
theorem State.memRead_mod (s : State) (a : Nat) : s.memRead (a % Config.ramSize) = s.memRead a := by
  simp [State.memRead]

theorem State.memRead_memWrite_same {s : State} (hs : s.memWf) (a : Nat) (b : Byte) :
    (s.memWrite a b).memRead a = b := by
  simpa [State.memRead] using Memory.get_set_same hs.1 (a % Config.ramSize) b

theorem State.memRead_memWrite_other (s : State) {a k : Nat} (b : Byte)
    (h : k % Config.ramSize ≠ a % Config.ramSize) : (s.memWrite a b).memRead k = s.memRead k := by
  simpa [State.memRead] using Memory.get_set_other s.params.font s.ram b h

theorem State.memWrite_memWf {s : State} (hs : s.memWf) (a : Nat) (b : Byte) : (s.memWrite a b).memWf := by
  simpa [State.memWf] using Memory.set_wf hs (Nat.mod_lt a (by decide)) b

/-- A read of `ram` depends on the cells and the font alone. -/
theorem State.memRead_congr {s t : State} (hr : t.ram = s.ram) (hp : t.params = s.params) (a : Nat) :
    t.memRead a = s.memRead a := by
  simp [State.memRead, hr, hp]

/-- The canonical form depends on the cells and the font alone. -/
theorem State.memWf_congr {s t : State} (hr : t.ram = s.ram) (hp : t.params = s.params) : t.memWf ↔ s.memWf := by
  simp [State.memWf, hr, hp]

theorem State.reset_memWf : State.reset.memWf := Memory.nil_wf _

theorem State.doInit_memWf (s : State) : s.doInit.memWf := Memory.nil_wf _

theorem State.zeroRam_memWf (s : State) : s.zeroRam.memWf := Memory.zeros_wf _

theorem State.zeroProgram_memWf {s : State} (hs : s.memWf) : s.zeroProgram.memWf := Memory.filter_wf hs _

end Sys2Proof.Machine
end

