-- ==== Sys2Proof/Laws/Ops.lean ====
section
/-!
SUPPORT. One lemma per shared operation: the value it writes, and everything it leaves alone.
-/

namespace Sys2Proof.Machine

/-! ## Registers and masks -/

/-- Masking to 12 bits is reduction mod 4096 (spec/20_memory.md R54, R55). -/
theorem mask12_toNat (w : Word) : (w &&& 0x0FFF#16).toNat = w.toNat % Config.ramSize := by
  rw [BitVec.toNat_and]
  exact Nat.and_two_pow_sub_one_eq_mod w.toNat 12

/-- A register write is read back at its register and nowhere else (spec/10_state.md R21). -/
theorem State.reg_setReg (s : State) (x r : Reg) (b : Byte) :
    (s.setReg x b).reg r = if r = x then b else s.reg r := by
  simp [State.reg, State.setReg, Vector.getElem_set, ← BitVec.toNat_inj, eq_comm]

@[simp] theorem State.reg_setReg_same (s : State) (x : Reg) (b : Byte) : (s.setReg x b).reg x = b := by
  simp [State.reg_setReg]

theorem State.setPc_toNat (s : State) (w : Word) : (s.setPc w).pc.toNat = w.toNat % Config.ramSize := mask12_toNat w

theorem State.setI_toNat (s : State) (w : Word) : (s.setI w).i.toNat = w.toNat % Config.ramSize := mask12_toNat w

/-- The normal advance: `pc + 2` mod 4096 (R100). -/
theorem State.advance_pc_toNat (s : State) : s.advance.pc.toNat = (s.pc.toNat + 2) % Config.ramSize := by
  have h := s.pc.isLt
  simp only [State.advance, State.setPc_toNat, BitVec.toNat_add]
  simp [Config.ramSize]

/-- The end of a skip: `pc + 4` or `pc + 2`, mod 4096 (R100). -/
theorem State.skipIf_pc_toNat (s : State) (c : Bool) :
    (s.skipIf c).pc.toNat = (s.pc.toNat + if c then 4 else 2) % Config.ramSize := by
  have h := s.pc.isLt
  cases c
  · simp only [State.skipIf, Bool.false_eq_true, if_false, State.setPc_toNat, BitVec.toNat_add]
    simp [Config.ramSize]
  · simp only [State.skipIf, if_true, State.setPc_toNat, BitVec.toNat_add]
    simp [Config.ramSize]

/-- A slot written is the slot read back; the other slots are left alone (spec/10_state.md R27). -/
theorem State.stackSlot_setStackSlot (s : State) (k j w : Word) :
    (s.setStackSlot k w).stackSlot j = if j.toNat % 16 = k.toNat % 16 then w else s.stackSlot j := by
  simp [State.stackSlot, Vector.getElem_set, eq_comm]

/-! ## Frames -/

theorem UnchangedBut.refl (es : List Element) (s : State) : UnchangedBut es s s := by
  intro e _
  cases e <;> simp [Element.same]

theorem UnchangedBut.mono {es fs : List Element} {s t : State} (h : UnchangedBut es s t) (hsub : es ⊆ fs) :
    UnchangedBut fs s t := fun e he => h e fun hm => he (hsub hm)

theorem Element.same_trans {e : Element} {s t u : State} (h1 : e.same s t) (h2 : e.same t u) : e.same s u := by
  cases e <;> simp_all [Element.same]

theorem UnchangedBut.trans {es : List Element} {s t u : State} (h1 : UnchangedBut es s t)
    (h2 : UnchangedBut es t u) : UnchangedBut es s u :=
  fun e he => Element.same_trans (h1 e he) (h2 e he)

/-- Two updates in a row leave alone what neither touches. -/
theorem UnchangedBut.append {es fs : List Element} {s t u : State} (h1 : UnchangedBut es s t)
    (h2 : UnchangedBut fs t u) : UnchangedBut (es ++ fs) s u :=
  (h1.mono (by simp)).trans (h2.mono (by simp))

theorem State.setReg_unchanged (s : State) (x : Reg) (b : Byte) : UnchangedBut [.v] s (s.setReg x b) := by
  intro e he; cases e <;> simp_all [Element.same]

theorem State.setPc_unchanged (s : State) (w : Word) : UnchangedBut [.pc] s (s.setPc w) := by
  intro e he; cases e <;> simp_all [Element.same]

theorem State.advance_unchanged (s : State) : UnchangedBut [.pc] s s.advance := s.setPc_unchanged _

theorem State.skipIf_unchanged (s : State) (c : Bool) : UnchangedBut [.pc] s (s.skipIf c) := by
  unfold State.skipIf; split <;> exact s.setPc_unchanged _

theorem State.setI_unchanged (s : State) (w : Word) : UnchangedBut [.i] s (s.setI w) := by
  intro e he; cases e <;> simp_all [Element.same]

theorem State.setSp_unchanged (s : State) (w : Word) : UnchangedBut [.sp] s (s.setSp w) := by
  intro e he; cases e <;> simp_all [Element.same]

theorem State.setStackSlot_unchanged (s : State) (k w : Word) : UnchangedBut [.stack] s (s.setStackSlot k w) := by
  intro e he; cases e <;> simp_all [Element.same]

theorem State.setOpcode_unchanged (s : State) (w : Word) : UnchangedBut [.opcode] s (s.setOpcode w) := by
  intro e he; cases e <;> simp_all [Element.same]

theorem State.setFxoa_unchanged (s : State) (w : Word) : UnchangedBut [.fxoaState] s (s.setFxoa w) := by
  intro e he; cases e <;> simp_all [Element.same]

theorem State.setDelay_unchanged (s : State) (b : Byte) : UnchangedBut [.delayTimer] s (s.setDelay b) := by
  intro e he; cases e <;> simp_all [Element.same]

theorem State.setSound_unchanged (s : State) (b : Byte) : UnchangedBut [.soundTimer] s (s.setSound b) := by
  intro e he; cases e <;> simp_all [Element.same]

theorem State.setDrawDisplay_unchanged (s : State) (b : Byte) :
    UnchangedBut [.drawDisplay] s (s.setDrawDisplay b) := by
  intro e he; cases e <;> simp_all [Element.same]

theorem State.setCpu_unchanged (s : State) (c : CpuState) : UnchangedBut [.cpuState] s (s.setCpu c) := by
  intro e he; cases e <;> simp_all [Element.same]

theorem State.setDisplay_unchanged (s : State) (d : Display) : UnchangedBut [.display] s (s.setDisplay d) := by
  intro e he; cases e <;> simp_all [Element.same]

theorem State.countDraw_unchanged (s : State) : UnchangedBut [.draws] s s.countDraw := by
  intro e he; cases e <;> simp_all [Element.same]

theorem State.settleCycles_unchanged (s : State) : UnchangedBut [.cycles, .cycleDraws] s s.settleCycles := by
  intro e he; cases e <;> simp_all [Element.same]

theorem State.memWrite_unchanged (s : State) (a : Nat) (b : Byte) : UnchangedBut [.ram] s (s.memWrite a b) := by
  intro e he; cases e <;> simp_all [Element.same]

theorem State.raiseUnrecognizedOpcode_unchanged (s : State) :
    UnchangedBut [.cpuState] s s.raiseUnrecognizedOpcode := s.setCpu_unchanged _

theorem State.bumpIndex_unchanged (s : State) (x : Reg) : UnchangedBut [.i] s (s.bumpIndex x) := by
  unfold State.bumpIndex; split
  exacts [s.setI_unchanged _, UnchangedBut.refl _ _]

theorem State.zeroVfQuirk_unchanged (s : State) : UnchangedBut [.v] s s.zeroVfQuirk := by
  unfold State.zeroVfQuirk; split
  exacts [s.setReg_unchanged _ _, UnchangedBut.refl _ _]

theorem State.writeByVfOrder_unchanged (s : State) (x : Reg) (r f : Byte) :
    UnchangedBut [.v] s (s.writeByVfOrder x r f) := by
  unfold State.writeByVfOrder; split
  · exact (s.setReg_unchanged vf f).trans ((s.setReg vf f).setReg_unchanged x r)
  · exact (s.setReg_unchanged x r).trans ((s.setReg x r).setReg_unchanged vf f)

/-! ## What the shared register operations write -/

/-- The result, then the flag (spec/41_register_alu.md R120, R127). -/
theorem State.reg_writeResultThenFlag (s : State) (x r : Reg) (result flag : Byte) :
    (s.writeResultThenFlag x result flag).reg r = if r = vf then flag else if r = x then result else s.reg r := by
  simp only [State.writeResultThenFlag, State.reg_setReg]

/-- The flag, then the result (R120). -/
theorem State.reg_writeFlagThenResult (s : State) (x r : Reg) (result flag : Byte) :
    (s.writeFlagThenResult x result flag).reg r = if r = x then result else if r = vf then flag else s.reg r := by
  simp only [State.writeFlagThenResult, State.reg_setReg]

/-- The two writes in the order `VF_ORDER` gives (R120). -/
theorem State.reg_writeByVfOrder (s : State) (x r : Reg) (result flag : Byte) :
    (s.writeByVfOrder x result flag).reg r =
      match s.params.vfOrder with
      | .tableOrder => if r = x then result else if r = vf then flag else s.reg r
      | .flagLast => if r = vf then flag else if r = x then result else s.reg r := by
  unfold State.writeByVfOrder
  cases s.params.vfOrder
  exacts [s.reg_writeFlagThenResult .., s.reg_writeResultThenFlag ..]

/-- `VF <- 0` under ZERO_VF (R124 to R126). -/
theorem State.reg_zeroVfQuirk (s : State) (r : Reg) :
    s.zeroVfQuirk.reg r = if s.quirk .zeroVf ∧ r = vf then 0 else s.reg r := by
  unfold State.zeroVfQuirk
  split <;> simp_all [State.reg_setReg]

/-- The post-increment of FX55 and FX65 (spec/42_index_memory.md R154, R155). -/
theorem State.bumpIndex_i_toNat (s : State) (x : Reg) :
    (s.bumpIndex x).i.toNat =
      if s.quirk .incrementI then (s.i.toNat + x.toNat + 1) % Config.ramSize else s.i.toNat := by
  unfold State.bumpIndex
  split
  · have := x.isLt
    rw [State.setI_toNat]
    simp [BitVec.toNat_add, Config.ramSize]
  · rfl

/-! ## Pixels (spec/43_display_blitter.md R170) -/

theorem pixelMask_getLsbD (px qx : Fin 64) : (pixelMask px).getLsbD (63 - qx.val) = decide (qx = px) := by
  have h1 := px.isLt
  have h2 := qx.isLt
  simp only [pixelMask, BitVec.getLsbD_shiftLeft, BitVec.getLsbD_one]
  by_cases h : qx = px
  · subst h; simp; omega
  · have h' : qx.val ≠ px.val := fun e => h (Fin.ext e)
    simp [h]; omega

/-- toggle flips its pixel and no other. -/
theorem Display.pix_togglePix (d : Display) (px qx : Fin 64) (py qy : Fin 32) :
    (d.togglePix px py).pix qx qy = (d.pix qx qy ^^ decide (qx = px ∧ qy = py)) := by
  simp only [Display.togglePix, Display.pix, Fin.getElem_fin, Vector.getElem_set]
  by_cases h : py = qy
  · subst h; simp [pixelMask_getLsbD]
  · have h2 : py.val ≠ qy.val := fun e => h (Fin.ext e)
    have h3 : ¬ qy = py := fun e => h e.symm
    simp [h2, h3]

/-- set makes its pixel 1 and leaves the others. -/
theorem Display.pix_setPix (d : Display) (px qx : Fin 64) (py qy : Fin 32) :
    (d.setPix px py).pix qx qy = (d.pix qx qy || decide (qx = px ∧ qy = py)) := by
  simp only [Display.setPix, Display.pix, Fin.getElem_fin, Vector.getElem_set]
  by_cases h : py = qy
  · subst h; simp [pixelMask_getLsbD]
  · have h2 : py.val ≠ qy.val := fun e => h (Fin.ext e)
    have h3 : ¬ qy = py := fun e => h e.symm
    simp [h2, h3]

/-- clear makes its pixel 0 and leaves the others. -/
theorem Display.pix_clearPix (d : Display) (px qx : Fin 64) (py qy : Fin 32) :
    (d.clearPix px py).pix qx qy = (d.pix qx qy && !decide (qx = px ∧ qy = py)) := by
  simp only [Display.clearPix, Display.pix, Fin.getElem_fin, Vector.getElem_set]
  by_cases h : py = qy
  · subst h
    have h64 : 63 - qx.val < 64 := by omega
    simp only [if_true, BitVec.getLsbD_and, BitVec.getLsbD_not, pixelMask_getLsbD, h64]
    simp
  · have h2 : py.val ≠ qy.val := fun e => h (Fin.ext e)
    have h3 : ¬ qy = py := fun e => h e.symm
    simp [h2, h3]

theorem Display.pix_clear (px : Fin 64) (py : Fin 32) : Display.clear.pix px py = false := by
  simp [Display.clear, Display.pix]

/-- A bitmap is its pixels. -/
theorem Display.ext_pix {d e : Display} (h : ∀ px py, d.pix px py = e.pix px py) : d = e := by
  apply Vector.ext
  intro y hy
  apply BitVec.eq_of_getLsbD_eq
  intro k hk
  have := h ⟨63 - k, by omega⟩ ⟨y, hy⟩
  simp only [Display.pix, Fin.getElem_fin] at this
  rwa [show 63 - (63 - k) = k by omega] at this

end Sys2Proof.Machine
end

