-- ==== Sys2Proof/Laws/Blitter.lean ====
section
/-!
SUPPORT. The blitter's scan as a list of touched pixels, each met once (spec/43_display_blitter.md R173 to R175).
-/

namespace Sys2Proof.Machine

/-- The scan's treatment of one touched pixel: it collides when set, and is toggled (R172). -/
def touchPixel (acc : Display × Bool) (p : Fin 64 × Fin 32) : Display × Bool :=
  (acc.1.togglePix p.1 p.2, acc.2 || acc.1.pix p.1 p.2)

/-- The pixel that column `c` of sprite row `r` touches, if any. -/
def bitPixel (clip : Bool) (cx cy b : Byte) (r c : Nat) : Option (Fin 64 × Fin 32) :=
  if spriteBit b c then
    match target clip cx cy c r with
    | .dropped => none
    | .pixel px py => some (px, py)
  else none

/-- The touched pixels in scan order. -/
def State.scanPixels (s : State) (cx cy : Byte) (n : Nat) : List (Fin 64 × Fin 32) :=
  (List.range n).flatMap fun r =>
    (List.range 8).filterMap (bitPixel (s.quirk .displayClipping) cx cy (s.memRead (s.indexed r)) r)

theorem blitBit_eq (clip : Bool) (cx cy b : Byte) (r : Nat) (acc : Display × Bool) (c : Nat) :
    blitBit clip cx cy b r acc c = match bitPixel clip cx cy b r c with
      | none => acc
      | some p => touchPixel acc p := by
  unfold blitBit bitPixel
  split
  · cases target clip cx cy c r <;> rfl
  · rfl

/-- The blitter is the touched pixels, taken in order. -/
theorem State.blit_eq_scan (s : State) (cx cy : Byte) (n : Nat) :
    s.blit cx cy n = (s.scanPixels cx cy n).foldl touchPixel (s.display, false) := by
  unfold State.blit State.scanPixels
  rw [List.foldl_flatMap]
  congr 1
  funext acc r
  rw [List.foldl_filterMap]
  unfold blitRow
  congr 1
  funext acc c
  rw [blitBit_eq]
  cases bitPixel _ cx cy _ r c <;> rfl

theorem State.mem_scanPixels (s : State) (cx cy : Byte) (n : Nat) (px : Fin 64) (py : Fin 32) :
    (px, py) ∈ s.scanPixels cx cy n ↔ Touched s cx cy n px py := by
  simp only [State.scanPixels, Touched, List.mem_flatMap, List.mem_filterMap, List.mem_range, bitPixel]
  refine exists_congr fun r => and_congr_right fun _ => exists_congr fun c => and_congr_right fun _ => ?_
  split
  · next hb =>
    cases target _ cx cy c r <;> simp [hb]
  · next hb => simp [hb]

/-- Two sprite bits that fall on one pixel are one bit (R175). -/
theorem target_injective {clip : Bool} {cx cy : Byte} {c c' r r' : Nat} {px : Fin 64} {py : Fin 32}
    (hc : c < 8) (hc' : c' < 8) (hr : r < 32) (hr' : r' < 32) (h : target clip cx cy c r = .pixel px py)
    (h' : target clip cx cy c' r' = .pixel px py) : c = c' ∧ r = r' := by
  unfold target at h h'
  cases clip
  · simp only [Bool.false_eq_true, if_false, Target.pixel.injEq, Fin.ext_iff] at h h'
    omega
  · simp only [if_true] at h h'
    split at h <;> split at h' <;> simp only [Target.pixel.injEq, Fin.ext_iff, reduceCtorEq] at h h'
    omega

/-- Every pixel is touched at most once by one DXYN (R175). -/
theorem State.scanPixels_nodup (s : State) (cx cy : Byte) {n : Nat} (hn : n ≤ 32) :
    (s.scanPixels cx cy n).Nodup := by
  unfold State.scanPixels
  rw [List.nodup_flatMap]
  have key : ∀ {r c : Nat} {p : Fin 64 × Fin 32} {clip b},
      bitPixel clip cx cy b r c = some p → target clip cx cy c r = .pixel p.1 p.2 := by
    intro r c p clip b h
    unfold bitPixel at h
    split at h
    · cases ht : target clip cx cy c r with
      | dropped => simp [ht] at h
      | pixel px py => simp only [ht, Option.some.injEq] at h; subst h; rfl
    · simp at h
  refine ⟨?_, ?_⟩
  · intro r hr
    rw [List.mem_range] at hr
    rw [List.nodup_iff_pairwise_ne, List.pairwise_filterMap]
    refine (List.nodup_iff_pairwise_ne.1 List.nodup_range).imp_of_mem ?_
    intro a b ha hb hne p hp q hq hpq
    subst hpq
    rw [List.mem_range] at ha hb
    exact hne (target_injective ha hb (by omega) (by omega) (key hp) (key hq)).1
  · refine (List.nodup_iff_pairwise_ne.1 List.nodup_range).imp_of_mem ?_
    intro a b ha hb hne p hp hq
    simp only [List.mem_filterMap, List.mem_range] at ha hb hp hq
    obtain ⟨c, hc, hp⟩ := hp
    obtain ⟨d, hd, hq⟩ := hq
    exact hne (target_injective hc hd (by omega) (by omega) (key hp) (key hq)).2

/-- Touching pixels without repeats toggles exactly them, and collides when one of them was set. -/
theorem foldl_touchPixel (ps : List (Fin 64 × Fin 32)) (h : ps.Nodup) (acc : Display × Bool) :
    (∀ px py, (ps.foldl touchPixel acc).1.pix px py = (acc.1.pix px py ^^ decide ((px, py) ∈ ps))) ∧
    (ps.foldl touchPixel acc).2 = (acc.2 || ps.any fun p => acc.1.pix p.1 p.2) := by
  induction ps generalizing acc with
  | nil => simp
  | cons p ps ih =>
    obtain ⟨hp, hps⟩ := List.nodup_cons.1 h
    obtain ⟨ih1, ih2⟩ := ih hps (touchPixel acc p)
    refine ⟨?_, ?_⟩
    · intro px py
      rw [List.foldl_cons, ih1]
      simp only [touchPixel, Display.pix_togglePix, List.mem_cons]
      by_cases hq : (px, py) = p
      · subst hq; simp [hp]
      · have : ¬ (px = p.1 ∧ py = p.2) := fun e => hq (Prod.ext e.1 e.2)
        simp [hq, this]
    · rw [List.foldl_cons, ih2]
      simp only [touchPixel, Display.pix_togglePix, List.any_cons, Bool.or_assoc]
      congr 2
      rw [Bool.eq_iff_iff, List.any_eq_true, List.any_eq_true]
      refine exists_congr fun q => and_congr_right fun hq => ?_
      have : ¬ (q.1 = p.1 ∧ q.2 = p.2) := fun e => hp (Prod.ext e.1 e.2 ▸ hq)
      simp [this]

end Sys2Proof.Machine
end

