-- ==== Sys2Proof/Laws/Encoding.lean ====
section
/-!
SUPPORT. The bits of an encoded word: the fields read back, and the fixed bits.
-/

namespace Sys2Proof

/-! ## The XNN, XY, X and A formats (spec/30_encoding.md R72) -/

theorem encodeXNN_fixed (base : Word) (x : Reg) (nn : Byte) :
    encodeXNN base x nn &&& 0xF000#16 = base &&& 0xF000#16 := by
  ext k hk
  simp only [encodeXNN]
  interval_cases k <;> simp

theorem encodeXY_fixed (base : Word) (x y : Reg) : encodeXY base x y &&& 0xF00F#16 = base &&& 0xF00F#16 := by
  ext k hk
  simp only [encodeXY]
  interval_cases k <;> simp

theorem encodeXYN_fixed (base : Word) (x y : Reg) (n : Nibble) :
    (encodeXY base x y ||| n.setWidth 16) &&& 0xF000#16 = base &&& 0xF000#16 := by
  ext k hk
  simp only [encodeXY]
  interval_cases k <;> simp

theorem encodeX_fixed (base : Word) (x : Reg) : encodeX base x &&& 0xF0FF#16 = base &&& 0xF0FF#16 := by
  ext k hk
  simp only [encodeX]
  interval_cases k <;> simp

theorem encodeA_fixed (base : Word) (nnn : Addr) : encodeA base nnn &&& 0xF000#16 = base &&& 0xF000#16 := by
  ext k hk
  simp only [encodeA]
  interval_cases k <;> simp

/-! ## Fields of a word whose fixed bits are known -/

theorem field_of_and {w m v : Word} (h : w &&& m = v) (start len : Nat)
    (hm : m.extractLsb' start len = BitVec.allOnes len) : w.extractLsb' start len = v.extractLsb' start len := by
  have h2 := congrArg (BitVec.extractLsb' start len) h
  rwa [BitVec.extractLsb'_and, hm, BitVec.and_allOnes] at h2

/-- The top nibble of a word that matches a row (every mask fixes it). -/
theorem fieldT_of_and {w m v : Word} (h : w &&& m = v) (hm : m.extractLsb' 12 4 = BitVec.allOnes 4) :
    fieldT w = v.extractLsb' 12 4 := field_of_and h 12 4 hm

/-- The low nibble of a word that matches a row whose mask fixes it. -/
theorem fieldN_of_and {w m v : Word} (h : w &&& m = v) (hm : m.extractLsb' 0 4 = BitVec.allOnes 4) :
    fieldN w = v.extractLsb' 0 4 := field_of_and h 0 4 hm

/-- The low byte of a word that matches a row whose mask fixes it. -/
theorem fieldNN_of_and {w m v : Word} (h : w &&& m = v) (hm : m.extractLsb' 0 8 = BitVec.allOnes 8) :
    fieldNN w = v.extractLsb' 0 8 := field_of_and h 0 8 hm

/-! ## The fields of an encoded word read back -/

theorem fieldX_encodeXNN (base : Word) (x : Reg) (nn : Byte) :
    fieldX (encodeXNN base x nn) = fieldX base ||| x := by
  ext k hk
  simp only [encodeXNN, fieldX]
  interval_cases k <;> simp

theorem fieldNN_encodeXNN (base : Word) (x : Reg) (nn : Byte) :
    fieldNN (encodeXNN base x nn) = fieldNN base ||| nn := by
  ext k hk
  simp only [encodeXNN, fieldNN]
  interval_cases k <;> simp

theorem fieldX_encodeXY (base : Word) (x y : Reg) : fieldX (encodeXY base x y) = fieldX base ||| x := by
  ext k hk
  simp only [encodeXY, fieldX]
  interval_cases k <;> simp

theorem fieldY_encodeXY (base : Word) (x y : Reg) : fieldY (encodeXY base x y) = fieldY base ||| y := by
  ext k hk
  simp only [encodeXY, fieldY]
  interval_cases k <;> simp

theorem fieldX_encodeXYN (base : Word) (x y : Reg) (n : Nibble) :
    fieldX (encodeXY base x y ||| n.setWidth 16) = fieldX base ||| x := by
  ext k hk
  simp only [encodeXY, fieldX]
  interval_cases k <;> simp

theorem fieldY_encodeXYN (base : Word) (x y : Reg) (n : Nibble) :
    fieldY (encodeXY base x y ||| n.setWidth 16) = fieldY base ||| y := by
  ext k hk
  simp only [encodeXY, fieldY]
  interval_cases k <;> simp

theorem fieldN_encodeXYN (base : Word) (x y : Reg) (n : Nibble) :
    fieldN (encodeXY base x y ||| n.setWidth 16) = fieldN base ||| n := by
  ext k hk
  simp only [encodeXY, fieldN]
  interval_cases k <;> simp

theorem fieldX_encodeX (base : Word) (x : Reg) : fieldX (encodeX base x) = fieldX base ||| x := by
  ext k hk
  simp only [encodeX, fieldX]
  interval_cases k <;> simp

theorem fieldNNN_encodeA (base : Word) (nnn : Addr) : fieldNNN (encodeA base nnn) = fieldNNN base ||| nnn := by
  ext k hk
  simp only [encodeA, fieldNNN]
  interval_cases k <;> simp

/-- The X field of a word is the top nibble of its NNN field (R72, R108). -/
theorem fieldNNN_top (w : Word) : (fieldNNN w).extractLsb' 8 4 = fieldX w := by
  ext k hk
  simp only [fieldNNN, fieldX]
  interval_cases k <;> simp

/-- The word of its two bytes in `ram` order (R51, R52). -/
theorem wordOfBytes_bytesOfWord (w : Word) : wordOfBytes (bytesOfWord w).1 (bytesOfWord w).2 = w := by
  ext k hk
  simp only [wordOfBytes, bytesOfWord]
  interval_cases k <;> simp

end Sys2Proof
end

