-- ==== Sys2Proof/Laws/Decoder.lean ====
section
/-!
SUPPORT. The decoder by its first nibble: one lemma per group (spec/30_encoding.md R74).
-/

namespace Sys2Proof

/-- A nibble has one of sixteen values. -/
theorem nibble_cases (t : Nibble) :
    t = 0x0#4 ∨ t = 0x1#4 ∨ t = 0x2#4 ∨ t = 0x3#4 ∨ t = 0x4#4 ∨ t = 0x5#4 ∨ t = 0x6#4 ∨ t = 0x7#4 ∨ t = 0x8#4 ∨
    t = 0x9#4 ∨ t = 0xA#4 ∨ t = 0xB#4 ∨ t = 0xC#4 ∨ t = 0xD#4 ∨ t = 0xE#4 ∨ t = 0xF#4 := by
  have h := t.isLt
  simp only [← BitVec.toNat_inj, BitVec.toNat_ofNat]
  omega

theorem decode_top0 (w : Word) (h : fieldT w = 0x0#4) :
    decode w = decodeGroup0 w := by simp [decode, h]

theorem decode_top1 (w : Word) (h : fieldT w = 0x1#4) :
    decode w = .instr (.jp (fieldNNN w)) := by simp [decode, h]

theorem decode_top2 (w : Word) (h : fieldT w = 0x2#4) :
    decode w = .instr (.call (fieldNNN w)) := by simp [decode, h]

theorem decode_top3 (w : Word) (h : fieldT w = 0x3#4) :
    decode w = .instr (.seVxNn (fieldX w) (fieldNN w)) := by simp [decode, h]

theorem decode_top4 (w : Word) (h : fieldT w = 0x4#4) :
    decode w = .instr (.sneVxNn (fieldX w) (fieldNN w)) := by simp [decode, h]

theorem decode_top5 (w : Word) (h : fieldT w = 0x5#4) :
    decode w =
      if fieldN w = 0x0#4 then .instr (.seVxVy (fieldX w) (fieldY w)) else .unrecognized .group5 := by simp [decode, h]

theorem decode_top6 (w : Word) (h : fieldT w = 0x6#4) :
    decode w = .instr (.ldVxNn (fieldX w) (fieldNN w)) := by simp [decode, h]

theorem decode_top7 (w : Word) (h : fieldT w = 0x7#4) :
    decode w = .instr (.addVxNn (fieldX w) (fieldNN w)) := by simp [decode, h]

theorem decode_top8 (w : Word) (h : fieldT w = 0x8#4) :
    decode w = decodeGroup8 w := by simp [decode, h]

theorem decode_top9 (w : Word) (h : fieldT w = 0x9#4) :
    decode w =
      if fieldN w = 0x0#4 then .instr (.sneVxVy (fieldX w) (fieldY w)) else .unrecognized .group9 := by simp [decode, h]

theorem decode_topA (w : Word) (h : fieldT w = 0xA#4) :
    decode w = .instr (.ldI (fieldNNN w)) := by simp [decode, h]

theorem decode_topB (w : Word) (h : fieldT w = 0xB#4) :
    decode w = .instr (.jpV0 (fieldX w) (fieldNNN w)) := by simp [decode, h]

theorem decode_topC (w : Word) (h : fieldT w = 0xC#4) :
    decode w = .instr (.rnd (fieldX w) (fieldNN w)) := by simp [decode, h]

theorem decode_topD (w : Word) (h : fieldT w = 0xD#4) :
    decode w = .instr (.drw (fieldX w) (fieldY w) (fieldN w)) := by simp [decode, h]

theorem decode_topE (w : Word) (h : fieldT w = 0xE#4) :
    decode w = decodeGroupE w := by simp [decode, h]

theorem decode_topF (w : Word) (h : fieldT w = 0xF#4) :
    decode w = decodeGroupF w := by simp [decode, h]

end Sys2Proof
end

