-- ==== Sys2Proof/Laws/PerInstr.lean ====
section
/-!
SUPPORT. Statements made for every instruction, one lemma per constructor of `Instr`.
-/

namespace Sys2Proof.Laws

/-- The word of an instruction carries the fixed bits of its row of the opcode table (spec/30_encoding.md R76): no operand,
at any value, reaches a fixed bit. -/
def FixedBits.Statement (i : Instr) : Prop := encode i &&& rowMask i = rowMatch i

theorem FixedBits.cls : FixedBits.Statement .cls := rfl

theorem FixedBits.ret : FixedBits.Statement .ret := rfl

theorem FixedBits.jp (nnn : Addr) : FixedBits.Statement (.jp nnn) := encodeA_fixed _ nnn

theorem FixedBits.call (nnn : Addr) : FixedBits.Statement (.call nnn) := encodeA_fixed _ nnn

theorem FixedBits.seVxNn (x : Reg) (nn : Byte) : FixedBits.Statement (.seVxNn x nn) := encodeXNN_fixed _ x nn

theorem FixedBits.sneVxNn (x : Reg) (nn : Byte) : FixedBits.Statement (.sneVxNn x nn) := encodeXNN_fixed _ x nn

theorem FixedBits.seVxVy (x : Reg) (y : Reg) : FixedBits.Statement (.seVxVy x y) := encodeXY_fixed _ x y

theorem FixedBits.ldVxNn (x : Reg) (nn : Byte) : FixedBits.Statement (.ldVxNn x nn) := encodeXNN_fixed _ x nn

theorem FixedBits.addVxNn (x : Reg) (nn : Byte) : FixedBits.Statement (.addVxNn x nn) := encodeXNN_fixed _ x nn

theorem FixedBits.ldVxVy (x : Reg) (y : Reg) : FixedBits.Statement (.ldVxVy x y) := encodeXY_fixed _ x y

theorem FixedBits.orVxVy (x : Reg) (y : Reg) : FixedBits.Statement (.orVxVy x y) := encodeXY_fixed _ x y

theorem FixedBits.andVxVy (x : Reg) (y : Reg) : FixedBits.Statement (.andVxVy x y) := encodeXY_fixed _ x y

theorem FixedBits.xorVxVy (x : Reg) (y : Reg) : FixedBits.Statement (.xorVxVy x y) := encodeXY_fixed _ x y

theorem FixedBits.addVxVy (x : Reg) (y : Reg) : FixedBits.Statement (.addVxVy x y) := encodeXY_fixed _ x y

theorem FixedBits.sub (x : Reg) (y : Reg) : FixedBits.Statement (.sub x y) := encodeXY_fixed _ x y

theorem FixedBits.shr (x : Reg) (y : Reg) : FixedBits.Statement (.shr x y) := encodeXY_fixed _ x y

theorem FixedBits.subn (x : Reg) (y : Reg) : FixedBits.Statement (.subn x y) := encodeXY_fixed _ x y

theorem FixedBits.shl (x : Reg) (y : Reg) : FixedBits.Statement (.shl x y) := encodeXY_fixed _ x y

theorem FixedBits.sneVxVy (x : Reg) (y : Reg) : FixedBits.Statement (.sneVxVy x y) := encodeXY_fixed _ x y

theorem FixedBits.ldI (nnn : Addr) : FixedBits.Statement (.ldI nnn) := encodeA_fixed _ nnn

theorem FixedBits.jpV0 (x : Reg) (nnn : Addr) : FixedBits.Statement (.jpV0 x nnn) := encodeA_fixed _ nnn

theorem FixedBits.rnd (x : Reg) (nn : Byte) : FixedBits.Statement (.rnd x nn) := encodeXNN_fixed _ x nn

theorem FixedBits.drw (x : Reg) (y : Reg) (n : Nibble) : FixedBits.Statement (.drw x y n) := encodeXYN_fixed _ x y n

theorem FixedBits.skp (x : Reg) : FixedBits.Statement (.skp x) := encodeX_fixed _ x

theorem FixedBits.sknp (x : Reg) : FixedBits.Statement (.sknp x) := encodeX_fixed _ x

theorem FixedBits.ldVxDt (x : Reg) : FixedBits.Statement (.ldVxDt x) := encodeX_fixed _ x

theorem FixedBits.ldVxK (x : Reg) : FixedBits.Statement (.ldVxK x) := encodeX_fixed _ x

theorem FixedBits.ldDtVx (x : Reg) : FixedBits.Statement (.ldDtVx x) := encodeX_fixed _ x

theorem FixedBits.ldStVx (x : Reg) : FixedBits.Statement (.ldStVx x) := encodeX_fixed _ x

theorem FixedBits.addIVx (x : Reg) : FixedBits.Statement (.addIVx x) := encodeX_fixed _ x

theorem FixedBits.ldFVx (x : Reg) : FixedBits.Statement (.ldFVx x) := encodeX_fixed _ x

theorem FixedBits.ldBVx (x : Reg) : FixedBits.Statement (.ldBVx x) := encodeX_fixed _ x

theorem FixedBits.ldMiVx (x : Reg) : FixedBits.Statement (.ldMiVx x) := encodeX_fixed _ x

theorem FixedBits.ldVxMi (x : Reg) : FixedBits.Statement (.ldVxMi x) := encodeX_fixed _ x

end Sys2Proof.Laws
end

