-- ==== Sys2Proof/Laws/Step.lean ====
section
/-!
SUPPORT. Everything a Step can do (spec/60_exceptions.md R212), said once, and the same for one instruction's arm.
-/

namespace Sys2Proof.Machine

theorem step_eq (s : State) : step s = engineStep s := rfl

/-- A Step that answers a next state is idle, has met an unrecognised word, or has run one instruction. -/
theorem step_next_cases {s t : State} (h : step s = .next t) :
    (s.cpuState ≠ .executing ∧ t = s) ∨
    (s.cpuState = .executing ∧ s.pc.toNat ≤ 0xFFF ∧
      ((∃ why, decode s.fetch16 = .unrecognized why ∧ s.refusesWord s.fetch16 = false ∧
          t = s.fetched.raiseUnrecognizedOpcode.settleCycles) ∨
       (∃ i u, decode s.fetch16 = .instr i ∧ exec i s.fetched = .next u ∧ t = u.settleCycles))) := by
  rw [step_eq, engineStep] at h
  split at h
  · next hc => exact .inl ⟨hc, by injection h with h; exact h.symm⟩
  · next hc =>
    split at h
    · simp at h
    · next hp =>
      refine .inr ⟨by simpa using hc, by omega, ?_⟩
      unfold runDecoded at h
      split at h
      · next why hd =>
        split at h
        · simp at h
        · next hr =>
          exact .inl ⟨why, hd, Bool.eq_false_iff.2 hr, by injection h with h; exact h.symm⟩
      · next i hd =>
        split at h
        · next u hu => exact .inr ⟨i, u, hd, hu, by injection h with h; exact h.symm⟩
        · simp at h
        · simp at h

/-- A Step that executes an instruction is that instruction on the state the fetch leaves. -/
theorem step_of_decode {s : State} {i : Instr} (hc : s.cpuState = .executing) (hp : s.pc.toNat ≤ 0xFFF)
    (hd : decode s.fetch16 = .instr i) :
    step s = match exec i s.fetched with
      | .next t => .next t.settleCycles
      | .fault f => .fault f
      | .refused r => .refused r := by
  rw [step_eq, engineStep, if_neg (by simp [hc]), if_neg (by omega)]
  cases h : exec i s.fetched <;> simp only [runDecoded, State.fetchDecode, hd, h]

end Sys2Proof.Machine
end

