-- ==== Sys2Proof/Laws/Transfers.lean ====
section
/-!
SUPPORT. The register-block loops of FX55 and FX65 (spec/42_index_memory.md R154, R155), one lemma for everything each
loop does.
-/

namespace Sys2Proof.Machine

/-- `n` stores of FX55 change `ram` and nothing else. -/
theorem State.storeRegs_unchanged (n : Nat) (s : State) :
    UnchangedBut [.ram] s ((List.range n).foldl State.storeReg s) := by
  induction n with
  | zero => exact UnchangedBut.refl _ _
  | succ n ih =>
    rw [List.range_succ, List.foldl_append]
    exact ih.trans (State.memWrite_unchanged _ _ _)

theorem State.storeRegs_indexed (n k : Nat) (s : State) :
    ((List.range n).foldl State.storeReg s).indexed k = s.indexed k := by
  simp only [State.indexed]
  rw [State.storeRegs_unchanged n s .i (by simp)]

/-- Outside `I`..`I + n - 1` every byte is as before. -/
theorem State.storeRegs_ram (n : Nat) (s : State) :
    RamUnchangedBut ((List.range n).map s.indexed) s ((List.range n).foldl State.storeReg s) := by
  induction n with
  | zero => intro a _; rfl
  | succ n ih =>
    intro a ha
    rw [List.range_succ, List.foldl_append]
    simp only [List.foldl_cons, List.foldl_nil, State.storeReg, State.storeRegs_indexed]
    rw [State.memRead_memWrite_other]
    · refine ih a fun b hb => ha b ?_
      simp only [List.range_succ, List.map_append, List.mem_append]
      exact .inl hb
    · exact ha _ (by simp [List.range_succ])

theorem State.storeRegs_memWf (n : Nat) {s : State} (hs : s.memWf) :
    ((List.range n).foldl State.storeReg s).memWf := by
  induction n with
  | zero => exact hs
  | succ n ih =>
    rw [List.range_succ, List.foldl_append]
    exact State.memWrite_memWf ih _ _

/-- Byte `I + k` holds `V[k]` once it has been stored; the addresses of one FX55 are distinct (spec/20_memory.md R61). -/
theorem State.storeRegs_memRead {n : Nat} (hn : n ≤ 16) {s : State} (hs : s.memWf) {k : Nat} (hk : k < n) :
    ((List.range n).foldl State.storeReg s).memRead (s.indexed k) = s.reg (BitVec.ofNat 4 k) := by
  induction n with
  | zero => omega
  | succ n ih =>
    rw [List.range_succ, List.foldl_append]
    simp only [List.foldl_cons, List.foldl_nil, State.storeReg, State.storeRegs_indexed]
    by_cases h : k = n
    · subst h
      rw [State.memRead_memWrite_same (State.storeRegs_memWf k hs)]
      exact State.storeRegs_unchanged k s .v (by simp) _
    · rw [State.memRead_memWrite_other]
      · exact ih (by omega) (by omega)
      · simp only [State.indexed, Config.ramSize]; omega

/-- `n` loads of FX65 change the registers and nothing else. -/
theorem State.loadRegs_unchanged (n : Nat) (s : State) :
    UnchangedBut [.v] s ((List.range n).foldl State.loadReg s) := by
  induction n with
  | zero => exact UnchangedBut.refl _ _
  | succ n ih =>
    rw [List.range_succ, List.foldl_append]
    exact ih.trans (State.setReg_unchanged _ _ _)

/-- The first `n` registers hold the bytes from `I`; the others are as before. -/
theorem State.loadRegs_reg {n : Nat} (hn : n ≤ 16) (s : State) (r : Reg) :
    ((List.range n).foldl State.loadReg s).reg r =
      if r.toNat < n then s.memRead (s.indexed r.toNat) else s.reg r := by
  induction n with
  | zero => simp
  | succ n ih =>
    have hu := State.loadRegs_unchanged n s
    have hr : (r = BitVec.ofNat 4 n) ↔ r.toNat = n := by
      rw [← BitVec.toNat_inj, BitVec.toNat_ofNat]
      omega
    rw [List.range_succ, List.foldl_append]
    simp only [List.foldl_cons, List.foldl_nil, State.loadReg, State.reg_setReg, hr, ih (by omega)]
    have hi : ((List.range n).foldl State.loadReg s).indexed n = s.indexed n := by
      simp only [State.indexed]
      rw [hu .i (by simp)]
    rw [hi, hu .ram (by simp) (s.indexed n)]
    by_cases h : r.toNat = n
    · simp [h]
    · have : (r.toNat < n + 1) ↔ r.toNat < n := by omega
      simp [h, this]

end Sys2Proof.Machine
end

