-- ==== Sys2Proof/Tests/Slice0.lean ====
section
/-!
SUPPORT. Tests of single words and single steps, and for every obligation with hypotheses a witness that meets them.

The expected values of the step tests are those of spec/95_test_vectors.md (the row's id is in the comment); the words
of the decode tests are written out from the Encoding line of each instruction's rule.
-/

namespace Sys2Proof.Tests

open Sys2Proof Sys2Proof.Machine

/-! ## The well-formedness check, and decoding -/

/-- The one check: BNNN's X is the top nibble of its NNN (R72, R108). -/
theorem test_wf_refuses_jpV0_mismatch : (Instr.jpV0 0x3#4 0x2F0#12).wf = false := by decide

theorem test_wf_accepts_jpV0_match : (Instr.jpV0 0x2#4 0x2F0#12).wf = true := by decide

theorem test_decode_cls :
    0x00E0#16 &&& 0xFFFF#16 = 0x00E0#16 ∧ decode 0x00E0#16 = .instr .cls ∧ encode .cls = 0x00E0#16 := by decide

theorem test_decode_ret :
    0x00EE#16 &&& 0xFFFF#16 = 0x00EE#16 ∧ decode 0x00EE#16 = .instr .ret ∧ encode .ret = 0x00EE#16 := by decide

theorem test_decode_jp :
    0x1234#16 &&& 0xF000#16 = 0x1000#16 ∧ decode 0x1234#16 = .instr (.jp 0x234#12) ∧ encode (.jp 0x234#12) = 0x1234#16 := by decide

theorem test_decode_call :
    0x2345#16 &&& 0xF000#16 = 0x2000#16 ∧ decode 0x2345#16 = .instr (.call 0x345#12) ∧ encode (.call 0x345#12) = 0x2345#16 := by decide

theorem test_decode_seVxNn :
    0x3A12#16 &&& 0xF000#16 = 0x3000#16 ∧ decode 0x3A12#16 = .instr (.seVxNn 0xA#4 0x12#8) ∧ encode (.seVxNn 0xA#4 0x12#8) = 0x3A12#16 := by decide

theorem test_decode_sneVxNn :
    0x4B34#16 &&& 0xF000#16 = 0x4000#16 ∧ decode 0x4B34#16 = .instr (.sneVxNn 0xB#4 0x34#8) ∧ encode (.sneVxNn 0xB#4 0x34#8) = 0x4B34#16 := by decide

theorem test_decode_seVxVy :
    0x5AB0#16 &&& 0xF00F#16 = 0x5000#16 ∧ decode 0x5AB0#16 = .instr (.seVxVy 0xA#4 0xB#4) ∧ encode (.seVxVy 0xA#4 0xB#4) = 0x5AB0#16 := by decide

theorem test_decode_ldVxNn :
    0x6C56#16 &&& 0xF000#16 = 0x6000#16 ∧ decode 0x6C56#16 = .instr (.ldVxNn 0xC#4 0x56#8) ∧ encode (.ldVxNn 0xC#4 0x56#8) = 0x6C56#16 := by decide

theorem test_decode_addVxNn :
    0x7D78#16 &&& 0xF000#16 = 0x7000#16 ∧ decode 0x7D78#16 = .instr (.addVxNn 0xD#4 0x78#8) ∧ encode (.addVxNn 0xD#4 0x78#8) = 0x7D78#16 := by decide

theorem test_decode_ldVxVy :
    0x8120#16 &&& 0xF00F#16 = 0x8000#16 ∧ decode 0x8120#16 = .instr (.ldVxVy 0x1#4 0x2#4) ∧ encode (.ldVxVy 0x1#4 0x2#4) = 0x8120#16 := by decide

theorem test_decode_orVxVy :
    0x8341#16 &&& 0xF00F#16 = 0x8001#16 ∧ decode 0x8341#16 = .instr (.orVxVy 0x3#4 0x4#4) ∧ encode (.orVxVy 0x3#4 0x4#4) = 0x8341#16 := by decide

theorem test_decode_andVxVy :
    0x8562#16 &&& 0xF00F#16 = 0x8002#16 ∧ decode 0x8562#16 = .instr (.andVxVy 0x5#4 0x6#4) ∧ encode (.andVxVy 0x5#4 0x6#4) = 0x8562#16 := by decide

theorem test_decode_xorVxVy :
    0x8783#16 &&& 0xF00F#16 = 0x8003#16 ∧ decode 0x8783#16 = .instr (.xorVxVy 0x7#4 0x8#4) ∧ encode (.xorVxVy 0x7#4 0x8#4) = 0x8783#16 := by decide

theorem test_decode_addVxVy :
    0x89A4#16 &&& 0xF00F#16 = 0x8004#16 ∧ decode 0x89A4#16 = .instr (.addVxVy 0x9#4 0xA#4) ∧ encode (.addVxVy 0x9#4 0xA#4) = 0x89A4#16 := by decide

theorem test_decode_sub :
    0x8BC5#16 &&& 0xF00F#16 = 0x8005#16 ∧ decode 0x8BC5#16 = .instr (.sub 0xB#4 0xC#4) ∧ encode (.sub 0xB#4 0xC#4) = 0x8BC5#16 := by decide

theorem test_decode_shr :
    0x8DE6#16 &&& 0xF00F#16 = 0x8006#16 ∧ decode 0x8DE6#16 = .instr (.shr 0xD#4 0xE#4) ∧ encode (.shr 0xD#4 0xE#4) = 0x8DE6#16 := by decide

theorem test_decode_subn :
    0x8F07#16 &&& 0xF00F#16 = 0x8007#16 ∧ decode 0x8F07#16 = .instr (.subn 0xF#4 0x0#4) ∧ encode (.subn 0xF#4 0x0#4) = 0x8F07#16 := by decide

theorem test_decode_shl :
    0x812E#16 &&& 0xF00F#16 = 0x800E#16 ∧ decode 0x812E#16 = .instr (.shl 0x1#4 0x2#4) ∧ encode (.shl 0x1#4 0x2#4) = 0x812E#16 := by decide

theorem test_decode_sneVxVy :
    0x9AB0#16 &&& 0xF00F#16 = 0x9000#16 ∧ decode 0x9AB0#16 = .instr (.sneVxVy 0xA#4 0xB#4) ∧ encode (.sneVxVy 0xA#4 0xB#4) = 0x9AB0#16 := by decide

theorem test_decode_ldI :
    0xA123#16 &&& 0xF000#16 = 0xA000#16 ∧ decode 0xA123#16 = .instr (.ldI 0x123#12) ∧ encode (.ldI 0x123#12) = 0xA123#16 := by decide

theorem test_decode_jpV0 :
    0xB2F0#16 &&& 0xF000#16 = 0xB000#16 ∧ decode 0xB2F0#16 = .instr (.jpV0 0x2#4 0x2F0#12) ∧ encode (.jpV0 0x2#4 0x2F0#12) = 0xB2F0#16 := by decide

theorem test_decode_rnd :
    0xC30F#16 &&& 0xF000#16 = 0xC000#16 ∧ decode 0xC30F#16 = .instr (.rnd 0x3#4 0x0F#8) ∧ encode (.rnd 0x3#4 0x0F#8) = 0xC30F#16 := by decide

theorem test_decode_drw :
    0xD12F#16 &&& 0xF000#16 = 0xD000#16 ∧ decode 0xD12F#16 = .instr (.drw 0x1#4 0x2#4 0xF#4) ∧ encode (.drw 0x1#4 0x2#4 0xF#4) = 0xD12F#16 := by decide

theorem test_decode_skp :
    0xE59E#16 &&& 0xF0FF#16 = 0xE09E#16 ∧ decode 0xE59E#16 = .instr (.skp 0x5#4) ∧ encode (.skp 0x5#4) = 0xE59E#16 := by decide

theorem test_decode_sknp :
    0xE6A1#16 &&& 0xF0FF#16 = 0xE0A1#16 ∧ decode 0xE6A1#16 = .instr (.sknp 0x6#4) ∧ encode (.sknp 0x6#4) = 0xE6A1#16 := by decide

theorem test_decode_ldVxDt :
    0xF407#16 &&& 0xF0FF#16 = 0xF007#16 ∧ decode 0xF407#16 = .instr (.ldVxDt 0x4#4) ∧ encode (.ldVxDt 0x4#4) = 0xF407#16 := by decide

theorem test_decode_ldVxK :
    0xF30A#16 &&& 0xF0FF#16 = 0xF00A#16 ∧ decode 0xF30A#16 = .instr (.ldVxK 0x3#4) ∧ encode (.ldVxK 0x3#4) = 0xF30A#16 := by decide

theorem test_decode_ldDtVx :
    0xF515#16 &&& 0xF0FF#16 = 0xF015#16 ∧ decode 0xF515#16 = .instr (.ldDtVx 0x5#4) ∧ encode (.ldDtVx 0x5#4) = 0xF515#16 := by decide

theorem test_decode_ldStVx :
    0xF618#16 &&& 0xF0FF#16 = 0xF018#16 ∧ decode 0xF618#16 = .instr (.ldStVx 0x6#4) ∧ encode (.ldStVx 0x6#4) = 0xF618#16 := by decide

theorem test_decode_addIVx :
    0xFA1E#16 &&& 0xF0FF#16 = 0xF01E#16 ∧ decode 0xFA1E#16 = .instr (.addIVx 0xA#4) ∧ encode (.addIVx 0xA#4) = 0xFA1E#16 := by decide

theorem test_decode_ldFVx :
    0xF229#16 &&& 0xF0FF#16 = 0xF029#16 ∧ decode 0xF229#16 = .instr (.ldFVx 0x2#4) ∧ encode (.ldFVx 0x2#4) = 0xF229#16 := by decide

theorem test_decode_ldBVx :
    0xF533#16 &&& 0xF0FF#16 = 0xF033#16 ∧ decode 0xF533#16 = .instr (.ldBVx 0x5#4) ∧ encode (.ldBVx 0x5#4) = 0xF533#16 := by decide

theorem test_decode_ldMiVx :
    0xF255#16 &&& 0xF0FF#16 = 0xF055#16 ∧ decode 0xF255#16 = .instr (.ldMiVx 0x2#4) ∧ encode (.ldMiVx 0x2#4) = 0xF255#16 := by decide

theorem test_decode_ldVxMi :
    0xFF65#16 &&& 0xF0FF#16 = 0xF065#16 ∧ decode 0xFF65#16 = .instr (.ldVxMi 0xF#4) ∧ encode (.ldVxMi 0xF#4) = 0xFF65#16 := by decide

/-- One illegal word of each group of R77. -/
theorem test_decode_illegal_words :
    decode 0x0123#16 = .unrecognized .group0 ∧ decode 0x5001#16 = .unrecognized .group5 ∧
    decode 0x812F#16 = .unrecognized .group8 ∧ decode 0x8128#16 = .unrecognized .group8 ∧
    decode 0x9AB1#16 = .unrecognized .group9 ∧ decode 0xE000#16 = .unrecognized .groupE ∧
    decode 0xF0FF#16 = .unrecognized .groupF := by decide

/-- The first byte is the high byte (R52). -/
theorem test_decodeBytes_big_endian : decodeBytes 0x6A#8 0x42#8 = .instr (.ldVxNn 0xA#4 0x42#8) := by decide

theorem test_decodeTableWord : decodeTableWord 16 0xF265 = some (.ldVxMi 0x2#4) := by decide

theorem test_decodeTableWord_rejects : decodeTableWord 16 0x5001 = none := by decide

/-! ## One step of each instruction (spec/95_test_vectors.md, section 2) -/

/-- The launch state with some registers and `I` set. -/
def launchWith (regs : List (Reg × Byte)) (index : Word) (quirks : Byte) : State :=
  (regs.foldl (fun s p => s.setReg p.1 p.2) { State.reset with i := index, quirks := quirks })

/-- The same with bytes of `ram` set. -/
def withRam (cells : List (Nat × Byte)) (s : State) : State := cells.foldl (fun s c => s.memWrite c.1 c.2) s

/-- The same with pixels set. -/
def withPixels (ps : List (Fin 64 × Fin 32)) (s : State) : State :=
  { s with display := ps.foldl (fun d p => d.setPix p.1 p.2) s.display }

/-- What `look` sees of the state after one Step of the word `w`. -/
def seen {α : Type} (w : Nat) (s : State) (look : State → α) : Option α :=
  match step (s.withFetchWord 16 w) with
  | .next t => some (look t)
  | .fault _ => none
  | .refused _ => none

/-- The fault of one Step of the word `w`. -/
def faultOf (w : Nat) (s : State) : Option Fault :=
  match step (s.withFetchWord 16 w) with
  | .next _ => none
  | .fault f => some f
  | .refused _ => none

/-- The pixels set in display row `py`. -/
def rowOf (s : State) (py : Fin 32) : BitVec 64 := s.display[py]

/-- CF1. -/
theorem test_jp : seen 0x1234 State.reset (·.pc) = some 0x234#16 := by decide

/-- CF4. -/
theorem test_call_last_slot :
    seen 0x2300 (State.reset.setSp 14) (fun t => (t.pc, t.sp, t.stackSlot 15)) = some (0x300#16, 15#16, 0x200#16) := by
  decide

/-- CF5. -/
theorem test_call_overflow : faultOf 0x2300 (State.reset.setSp 15) = some .stackOverflow := by decide

/-- CF9. -/
theorem test_ret_wraps :
    seen 0x00EE ((State.reset.setSp 3).setStackSlot 3 0xFFE#16) (fun t => (t.pc, t.sp)) = some (0#16, 2#16) := by decide

/-- CF8. -/
theorem test_ret_underflow : faultOf 0x00EE (State.reset.setSp 16) = some .stackUnderflow := by decide

/-- CF12. -/
theorem test_seVxNn_skips_and_wraps : seen 0x3F00 (State.reset.setPc 0xFFC#16) (·.pc) = some 0x000#16 := by decide

/-- CF11. -/
theorem test_seVxNn_no_skip : seen 0x3311 (launchWith [(3, 0x10)] 0 0) (·.pc) = some 0x202#16 := by decide

/-- CF13. -/
theorem test_sneVxNn_skips : seen 0x4311 (launchWith [(3, 0x10)] 0 0) (·.pc) = some 0x204#16 := by decide

/-- CF14. -/
theorem test_sneVxNn_no_skip : seen 0x4310 (launchWith [(3, 0x10)] 0 0) (·.pc) = some 0x202#16 := by decide

/-- CF15. -/
theorem test_seVxVy_skips : seen 0x5120 (launchWith [(1, 7), (2, 7)] 0 0) (·.pc) = some 0x204#16 := by decide

/-- CF16. -/
theorem test_seVxVy_no_skip : seen 0x5120 (launchWith [(1, 7), (2, 8)] 0 0) (·.pc) = some 0x202#16 := by decide

/-- CF18. -/
theorem test_sneVxVy_skips : seen 0x9120 (launchWith [(1, 7), (2, 8)] 0 0) (·.pc) = some 0x204#16 := by decide

/-- CF20. -/
theorem test_sneVxVy_same_register : seen 0x9440 (launchWith [(4, 0x42)] 0 0) (·.pc) = some 0x202#16 := by decide

/-- CF21. -/
theorem test_jpV0_wraps : seen 0xBFF8 (launchWith [(0, 0x10)] 0 0) (·.pc) = some 0x008#16 := by decide

/-- CF23: quirk JUMP_VX. -/
theorem test_jpV0_jumpVx : seen 0xB2F0 (launchWith [(0, 1), (2, 5)] 0 0x10#8) (·.pc) = some 0x2F5#16 := by decide

/-- CF26: the word at 0xFFE, and `pc` wraps. -/
theorem test_ldVxNn_at_the_top :
    seen 0x6A55 (State.reset.setPc 0xFFE#16) (fun t => (t.reg 0xA, t.pc, t.opcode)) = some (0x55#8, 0#16, 0x6A55#16) := by
  decide

/-- AL2. -/
theorem test_ldVxNn_vf : seen 0x6F07 (launchWith [(0xF, 0x55)] 0 0) (·.reg vf) = some 0x07#8 := by decide

/-- AL3. -/
theorem test_addVxNn_no_flag :
    seen 0x7A02 (launchWith [(0xA, 0xFF), (0xF, 0x55)] 0 0) (fun t => (t.reg 0xA, t.reg vf)) = some (0x01#8, 0x55#8) := by
  decide

/-- AL6: ZERO_VF does not apply. -/
theorem test_ldVxVy_from_vf :
    seen 0x81F0 (launchWith [(0xF, 0x77)] 0 0x02#8) (fun t => (t.reg 1, t.reg vf)) = some (0x77#8, 0x77#8) := by decide

/-- AL7. -/
theorem test_orVxVy : seen 0x8121 (launchWith [(1, 0x0F), (2, 0xF0), (0xF, 0x55)] 0 0)
    (fun t => (t.reg 1, t.reg vf)) = some (0xFF#8, 0x55#8) := by decide

/-- AL8. -/
theorem test_orVxVy_zeroVf : seen 0x8121 (launchWith [(1, 0x0F), (2, 0xF0), (0xF, 0x55)] 0 0x02#8)
    (fun t => (t.reg 1, t.reg vf)) = some (0xFF#8, 0x00#8) := by decide

/-- AL9. -/
theorem test_andVxVy : seen 0x8122 (launchWith [(1, 0x3C), (2, 0x0F), (0xF, 0x55)] 0 0)
    (fun t => (t.reg 1, t.reg vf)) = some (0x0C#8, 0x55#8) := by decide

/-- AL10. -/
theorem test_andVxVy_zeroVf : seen 0x8122 (launchWith [(1, 0x3C), (2, 0x0F), (0xF, 0x55)] 0 0x02#8)
    (fun t => (t.reg 1, t.reg vf)) = some (0x0C#8, 0x00#8) := by decide

/-- AL11. -/
theorem test_xorVxVy : seen 0x8123 (launchWith [(1, 0x0F), (2, 0x3C)] 0 0) (·.reg 1) = some 0x33#8 := by decide

/-- AL13: with x = 0xF the zero is written last. -/
theorem test_xorVxVy_vf_zeroVf :
    seen 0x8F23 (launchWith [(0xF, 0x0F), (2, 0x3C)] 0 0x02#8) (·.reg vf) = some 0x00#8 := by decide

/-- AL14. -/
theorem test_addVxVy_carry : seen 0x8124 (launchWith [(1, 0xFF), (2, 0x01), (0xF, 0x55)] 0 0)
    (fun t => (t.reg 1, t.reg vf)) = some (0x00#8, 0x01#8) := by decide

/-- AL16. -/
theorem test_addVxVy_no_carry : seen 0x8124 (launchWith [(1, 0x80), (2, 0x7F), (0xF, 0x55)] 0 0)
    (fun t => (t.reg 1, t.reg vf)) = some (0xFF#8, 0x00#8) := by decide

/-- AL20. -/
theorem test_sub_borrow : seen 0x8125 (launchWith [(1, 0x05), (2, 0x0A), (0xF, 0x55)] 0 0)
    (fun t => (t.reg 1, t.reg vf)) = some (0xFB#8, 0x00#8) := by decide

/-- AL24: x = 0xF under FlagLast. -/
theorem test_sub_vf_flagLast :
    seen 0x8F25
      { launchWith [(0xF, 0x0A), (2, 0x05)] 0 0 with params := { defaultParams with vfOrder := .flagLast } }
      (·.reg vf) = some 0x01#8 := by decide

/-- AL25. -/
theorem test_shr_source_is_vy : seen 0x8126 (launchWith [(1, 0x00), (2, 0x81), (0xF, 0x55)] 0 0)
    (fun t => (t.reg 1, t.reg vf)) = some (0x40#8, 0x01#8) := by decide

/-- AL26. -/
theorem test_shr_quirk : seen 0x8126 (launchWith [(1, 0x81), (2, 0x33), (0xF, 0x55)] 0 0x01#8)
    (fun t => (t.reg 1, t.reg vf)) = some (0x40#8, 0x01#8) := by decide

/-- AL31. -/
theorem test_subn_borrow : seen 0x8127 (launchWith [(1, 0x0A), (2, 0x05), (0xF, 0x55)] 0 0)
    (fun t => (t.reg 1, t.reg vf)) = some (0xFB#8, 0x00#8) := by decide

/-- AL32: x = 0xF under TableOrder. -/
theorem test_subn_vf_tableOrder :
    seen 0x8F27 (launchWith [(0xF, 0x03), (2, 0x0A)] 0 0) (·.reg vf) = some 0x07#8 := by decide

/-- AL34. -/
theorem test_shl_source_is_vy : seen 0x812E (launchWith [(1, 0x00), (2, 0x81), (0xF, 0x55)] 0 0)
    (fun t => (t.reg 1, t.reg vf)) = some (0x02#8, 0x01#8) := by decide

/-- AL36: x = 0xF under TableOrder. -/
theorem test_shl_vf_tableOrder : seen 0x8F2E (launchWith [(2, 0x81)] 0 0) (·.reg vf) = some 0x02#8 := by decide

/-- AL39: a mask of 0 gives 0 whatever is drawn, and a byte is drawn. -/
theorem test_rnd_mask_zero (s : State) :
    ∃ t, exec (.rnd 3 0x00#8) s = .next t ∧ t.reg 3 = 0 ∧ t.draws = s.draws + 1 :=
  ⟨_, rfl, by simp [State.reg, State.setReg, State.advance, State.setPc], rfl⟩

/-- IM2. -/
theorem test_ldI : seen 0xAFFF State.reset (·.i) = some 0xFFF#16 := by decide

/-- IM4. -/
theorem test_addIVx_wraps : seen 0xF31E (launchWith [(3, 0x02)] 0xFFF#16 0) (·.i) = some 0x001#16 := by decide

/-- IM5: VF is an operand, not a flag. -/
theorem test_addIVx_vf_operand :
    seen 0xFF1E (launchWith [(0xF, 0x55)] 0x10#16 0) (fun t => (t.i, t.reg vf)) = some (0x065#16, 0x55#8) := by decide

/-- IM6. -/
theorem test_ldFVx_glyph : seen 0xF229 (launchWith [(2, 0x0A)] 0 0) (·.i) = some 0x032#16 := by decide

/-- IM9. -/
theorem test_ldFVx_largest : seen 0xF229 (launchWith [(2, 0xFF)] 0 0) (·.i) = some 0x4FB#16 := by decide

/-- IM10. -/
theorem test_ldBVx : seen 0xF533 (launchWith [(5, 157)] 0x300#16 0)
    (fun t => [t.memRead 0x300, t.memRead 0x301, t.memRead 0x302]) = some [1#8, 5#8, 7#8] := by decide

/-- IM13. -/
theorem test_ldBVx_wraps : seen 0xF533 (launchWith [(5, 123)] 0xFFE#16 0)
    (fun t => [t.memRead 0xFFE, t.memRead 0xFFF, t.memRead 0x000, t.memRead 0x001]) =
    some [1#8, 2#8, 3#8, 0x90#8] := by decide

/-- IM15. -/
theorem test_ldMiVx : seen 0xF255 (launchWith [(0, 1), (1, 2), (2, 3), (3, 4)] 0x300#16 0)
    (fun t => (t.i, [t.memRead 0x300, t.memRead 0x301, t.memRead 0x302, t.memRead 0x303])) =
    some (0x300#16, [1#8, 2#8, 3#8, 0#8]) := by decide

/-- IM17. -/
theorem test_ldMiVx_incrementI : seen 0xF055 (launchWith [(0, 0xAB)] 0x300#16 0x08#8)
    (fun t => (t.i, t.memRead 0x300)) = some (0x301#16, 0xAB#8) := by decide

/-- IM19. -/
theorem test_ldVxMi : seen 0xF265
    (withRam [(0x300, 9), (0x301, 8), (0x302, 7), (0x303, 6)] (launchWith [] 0x300#16 0))
    (fun t => (t.i, [t.reg 0, t.reg 1, t.reg 2, t.reg 3])) = some (0x300#16, [9#8, 8#8, 7#8, 0#8]) := by decide

/-- IM22. -/
theorem test_ldVxMi_wraps_incrementI : seen 0xF165 (withRam [(0xFFF, 0x77)] (launchWith [] 0xFFF#16 0x08#8))
    (fun t => (t.i, t.reg 0, t.reg 1)) = some (0x001#16, 0x77#8, 0xF0#8) := by decide

/-- DX1. -/
theorem test_cls : seen 0x00E0 (withPixels [(0, 0), (63, 31)] State.reset)
    (fun t => (t.display, t.drawDisplay, t.pc)) = some (Display.clear, 1#8, 0x202#16) := by decide

/-- DX5: wrap mode. -/
theorem test_drw_wraps : seen 0xD011 (withRam [(0x300, 0xFF)] (launchWith [(0, 60), (1, 5)] 0x300#16 0))
    (fun t => (rowOf t 5, t.reg vf)) = some (0xF00000000000000F#64, 0#8) := by decide

/-- DX8: clip mode. -/
theorem test_drw_clips :
    seen 0xD013
      (withRam [(0x300, 0x80), (0x301, 0x80), (0x302, 0x80)] (launchWith [(0, 3), (1, 31)] 0x300#16 0x20#8))
      (fun t => (rowOf t 31, rowOf t 0, rowOf t 1)) = some (0x1000000000000000#64, 0#64, 0#64) := by decide

/-- KT1. -/
theorem test_skp_pressed :
    seen 0xE59E { launchWith [(5, 0x0C)] 0 0 with keypad := 0x1000#16 } (·.pc) = some 0x204#16 := by decide

/-- KT6. -/
theorem test_skp_no_such_key :
    faultOf 0xE59E { launchWith [(5, 0x10)] 0 0 with keypad := 0xFFFF#16 } = some .keyIndex := by decide

/-- KT4. -/
theorem test_sknp_released :
    seen 0xE5A1 { launchWith [(5, 0x0C)] 0 0 with keypad := 0xEFFF#16 } (·.pc) = some 0x204#16 := by decide

/-- KT7. -/
theorem test_sknp_no_such_key : faultOf 0xE5A1 (launchWith [(5, 0xFF)] 0 0) = some .keyIndex := by decide

/-- KT10: the second Step of it. -/
theorem test_ldVxK_held : seen 0xF30A { State.reset with keypad := 0x0020#16 }
    (fun t => (t.pc, t.fxoaState, t.reg 3)) = some (0x200#16, 0x0020#16, 0#8) := by decide

/-- KT13: the second Step of it; key 9 is released while key 0 is held. -/
theorem test_ldVxK_released : seen 0xF30A { State.reset with keypad := 0x0001#16, fxoaState := 0x0201#16 }
    (fun t => (t.pc, t.fxoaState, t.reg 3)) = some (0x202#16, 0#16, 9#8) := by decide

/-- KT15. -/
theorem test_ldVxDt : seen 0xF407 (State.reset.setDelay 0x3C) (·.reg 4) = some 0x3C#8 := by decide

/-- KT16. -/
theorem test_ldDtVx : seen 0xF415 (launchWith [(4, 0x3C)] 0 0) (fun t => (t.delayTimer, t.soundTimer)) =
    some (0x3C#8, 0#8) := by decide

/-- KT17. -/
theorem test_ldStVx : seen 0xF418 (launchWith [(4, 0x02)] 0 0) (fun t => (t.delayTimer, t.soundTimer)) =
    some (0#8, 0x02#8) := by decide

/-! ## The engine and the other commands -/

/-- EX1. -/
theorem test_unrecognized : seen 0x5001 State.reset (fun t => (t.cpuState, t.opcode, t.pc)) =
    some (.errorOpcode, 0x5001#16, 0x200#16) := by decide

/-- EX11. -/
theorem test_pc_range : (match step { State.reset with pc := 0x1000#16 } with
    | .fault .pcRange => true
    | _ => false) = true := by decide

/-- EX4: refused, and `opcode` is written. -/
theorem test_refuse :
    let s := { State.reset with params := { defaultParams with sysPolicy := .refuse } }.withFetchWord 16 0x0123
    let z := (Session.start s).issue .step
    (z.mark, z.machine.opcode, z.machine.cpuState) =
      (some (.refused (.unlistedHandler 0x0123#16)), 0x0123#16, .executing) := by decide

/-- EX14: after a fault `Init` is a no-op. -/
theorem test_fault_absorbs_init :
    let z := (Session.start (State.reset.withFetchWord 16 0x00EE)).issueAll [.step, .init]
    (z.mark, z.machine.opcode) = (some (.fault .stackUnderflow), 0x00EE#16) := by decide

/-- KT18. -/
theorem test_ticks_and_beeps :
    let z := (Session.start ((State.reset.setDelay 2).setSound 2)).issueAll [.tick, .tick, .tick]
    (z.machine.delayTimer, z.machine.soundTimer, z.trace) = (0#8, 0#8, [Event.beep, Event.beep]) := by decide

/-- RS4. -/
theorem test_zeroProgram :
    let s := (withRam [(0x200, 0x61), (0x1FF, 0x11), (0xFFF, 0x22)] State.reset).zeroProgram
    [s.memRead 0x04F, s.memRead 0x1FF, s.memRead 0x200, s.memRead 0xFFF] = [0x80#8, 0x11#8, 0#8, 0#8] := by decide

/-- RS6: the font is erased. -/
theorem test_zeroRam :
    [State.reset.zeroRam.memRead 0, State.reset.zeroRam.memRead 0x4F] = [0#8, 0#8] := by decide

/-- RS2: the display is cleared under CLEAR_SCREEN_ON_RESET. -/
theorem test_reset_clears_screen :
    (withPixels [(0, 0)] (launchWith [] 0 0x04#8)).doReset.display = Display.clear := by decide

/-- R230 at a host-written `pc` out of range: the word 0x1200 at `pc` = 0x1200 is no end of a run (log entry 15). -/
theorem test_ended_needs_legal_pc :
    ¬ (Session.start { State.reset.withFetchWord 16 0x1200 with pc := 0x1200#16 }).Ended ∧
    (Session.start (State.reset.withFetchWord 16 0x1200)).Ended := by
  unfold Session.Ended
  decide

/-- R230 and R231: a halted FX0A has ended and is not waiting; an executing one is waiting (log entry 16). -/
theorem test_halted_wait_has_ended :
    (let z := Session.start ((State.reset.withFetchWord 16 0xF30A).setCpu .halted)
     z.Ended ∧ ¬ z.Waiting) ∧
    (Session.start (State.reset.withFetchWord 16 0xF30A)).Waiting :=
  ⟨⟨⟨rfl, .inl (by decide)⟩, fun h => absurd h.2.1 (by decide)⟩, ⟨rfl, rfl, by decide, ⟨3, by decide⟩, by decide⟩⟩

/-! ## Witnesses: for every obligation with hypotheses, values that meet them -/

/-- A byte listed at each end of `ram`. -/
def twoBytes : State := withRam [(0xFFF, 0x22), (0, 0)] State.reset

theorem twoBytes_memWf : twoBytes.memWf :=
  State.memWrite_memWf (State.memWrite_memWf State.reset_memWf _ _) _ _

/-- Every legal-value invariant at its bound (R42). -/
def boundState : State :=
  { twoBytes with pc := 0xFFF#16, sp := 15#16, i := 0xFFF#16, stack := Vector.replicate 16 0xFFF#16 }

theorem boundState_legal : boundState.Legal where
  ramCanonical := twoBytes_memWf
  pcInRange := by decide
  spInRange := by decide
  indexInRange := by decide
  slotsInRange := by decide

/-- StepKeepsLegalStates, CommandsKeepLegalStates: a legal state at the bounds whose Step answers a next state. The word
at 0xFFF is 0x2200, made of the last byte and the first. -/
theorem witness_stepKeepsLegalStates :
    boundState.Legal ∧ boundState.fetch16 = 0x2200#16 ∧
    (match step { boundState with sp := 14#16 } with
      | .next t => decide (t.pc = 0x200#16 ∧ t.sp = 15#16 ∧ t.stackSlot 15 = 0xFFF#16)
      | _ => false) = true :=
  ⟨boundState_legal, by decide, by decide⟩

theorem witness_encodeThenDecode : (Instr.jpV0 0xF#4 0xFFF#12).wf = true ∧ (Instr.drw 0xF#4 0xF#4 0xF#4).wf = true := by
  decide

theorem witness_decodeThenEncode : decode 0xBFFF#16 = .instr (.jpV0 0xF#4 0xFFF#12) := by decide

/-- StepRunsTheDecodedInstruction: at the top of `ram`, the second byte being the first byte of `ram`. -/
theorem witness_stepRuns :
    boundState.cpuState = .executing ∧ boundState.pc.toNat ≤ 0xFFF ∧
    0x2200#16 = wordOfBytes (boundState.memRead boundState.pc.toNat) (boundState.memRead (boundState.pc.toNat + 1)) ∧
    decode 0x2200#16 = .instr (.call 0x200#12) := by decide

theorem witness_stepIsIdle :
    (State.reset.setCpu .halted).cpuState ≠ .executing ∧ (State.reset.setCpu .errorOpcode).cpuState ≠ .executing := by
  decide

/-- FetchIsBigEndianAndWraps: both hypotheses, `pc` at its bound, and a Step that completes. -/
theorem witness_fetch :
    boundState.cpuState = .executing ∧ boundState.pc.toNat = 0xFFF ∧
    (match step { boundState with sp := 0#16 } with
      | .next t => decide (t.opcode = 0x2200#16)
      | _ => false) = true := by decide

/-- A state that refuses unlisted group-0 words. -/
def refusing : State := { State.reset with params := { defaultParams with sysPolicy := .refuse } }

/-- UnrecognizedWordIsTerminal: one word for each side of the hypothesis on SYS_POLICY. -/
theorem witness_unrecognized :
    (let s := State.reset.withFetchWord 16 0x0123
     s.cpuState = .executing ∧ s.pc.toNat ≤ 0xFFF ∧ decode s.fetch16 = .unrecognized .group0 ∧
       s.params.sysPolicy = .unrecognized) ∧
    (let s := refusing.withFetchWord 16 0x5001
     s.cpuState = .executing ∧ s.pc.toNat ≤ 0xFFF ∧ decode s.fetch16 = .unrecognized .group5 ∧
       s.params.sysPolicy = .refuse ∧ fieldT s.fetch16 ≠ 0#4) := by decide

/-- UndefinedOutcomesAreThoseOfTheTable: a Step of each kind, at the bound of each condition. -/
theorem witness_undefinedOutcomes :
    faultOf 0x2300 (State.reset.setSp 15) = some .stackOverflow ∧
    faultOf 0x2300 (State.reset.setSp 14) = none ∧
    faultOf 0x00EE (State.reset.setSp 0) = some .stackUnderflow ∧
    faultOf 0x00EE (State.reset.setSp 15) = none ∧
    faultOf 0xE59E (launchWith [(5, 16)] 0 0) = some .keyIndex ∧
    faultOf 0xE5A1 (launchWith [(5, 15)] 0 0) = none := by decide

/-- RefusalsAreThoseOfSysPolicy: refused, and not for 00E0. -/
theorem witness_refusals :
    (match step (refusing.withFetchWord 16 0x0FFF) with
      | .refused r => decide (r = .unlistedHandler 0x0FFF#16)
      | _ => false) = true ∧
    (seen 0x00E0 refusing (·.pc)) = some 0x202#16 := by decide

/-- InstructionsWriteOnlyTheirElements, OnlyRndDrawsAndOnce: an instruction that completes. -/
theorem witness_execCompletes : ∃ t, exec (.rnd 0xF#4 0xFF#8) State.reset = .next t := ⟨_, rfl⟩

/-- StepNeverWritesHostControl: a Step that keeps `cpu_state`, and one that enters ERROR_OPCODE. -/
theorem witness_stepHostControl :
    seen 0x1200 State.reset (·.cpuState) = some .executing ∧ seen 0x5001 State.reset (·.cpuState) = some .errorOpcode := by
  decide

/-- MemoryReadAfterWrite: the address written under two names, and its neighbour. -/
theorem witness_memory :
    twoBytes.memWf ∧ 0x1FFF % 4096 = 0xFFF % 4096 ∧ (twoBytes.memWrite 0x1FFF 7).memRead 0xFFF = 7 ∧
    (twoBytes.memWrite 0x1FFF 7).memRead 0x1000 = 0 :=
  ⟨twoBytes_memWf, by decide, by decide, by decide⟩

/-- PlacedWordIsFetchedNext: at `pc` = 0xFFF the second byte goes to 0x000. -/
theorem witness_placedWord :
    boundState.memWf ∧ (boundState.withFetchWord 16 0x6A42).fetch16 = 0x6A42#16 ∧
    (boundState.withFetchWord 16 0x6A42).memRead 0 = 0x42#8 :=
  ⟨twoBytes_memWf, by decide, by decide⟩

/-- RetPopsAndReturnsPastTheCall: each end of each clause. -/
theorem witness_ret :
    (1 ≤ (State.reset.setSp 1).sp.toNat ∧ (State.reset.setSp 1).sp.toNat ≤ 15) ∧
    (1 ≤ (State.reset.setSp 15).sp.toNat ∧ (State.reset.setSp 15).sp.toNat ≤ 15) ∧
    State.reset.sp.toNat = 0 ∧ 15 < (State.reset.setSp 16).sp.toNat := by decide

/-- JpSetsPc: a jump to itself. -/
theorem witness_jp : State.reset.pc.toNat = (0x200#12).toNat := by decide

/-- SelfJumpRepeatsForever: the word 0x1200 at 0x200 (CF2), and a run on it. -/
theorem witness_selfJump :
    let s := State.reset.withFetchWord 16 0x1200
    s.cpuState = .executing ∧ s.pc.toNat ≤ 0xFFF ∧ s.fetch16 = 0x1000#16 ||| s.pc ∧
    (Session.start s).mark = none ∧ (Session.start s).machine = s := by decide

/-- CallPushesItsOwnAddress, CallThenReturnResumesAfterTheCall: each side of the bound. -/
theorem witness_call : (State.reset.setSp 14).sp.toNat < 15 ∧ 15 ≤ (State.reset.setSp 15).sp.toNat := by decide

/-- ShiftsWriteResultAndShiftedOutBit: the source without the quirk and with it. -/
theorem witness_shifts :
    (let s := launchWith [(1, 0x33), (2, 0x81)] 0 0
     0x81#8 = (if s.quirk .shiftXRegister then s.reg 1 else s.reg 2)) ∧
    (let s := launchWith [(1, 0x33), (2, 0x81)] 0 0x01#8
     0x33#8 = (if s.quirk .shiftXRegister then s.reg 1 else s.reg 2)) := by decide

theorem witness_finalVf :
    let s := launchWith [(0xF, 0x0A), (2, 0x05)] 0 0
    0x0A#8 = s.reg vf ∧ 0x05#8 = s.reg 2 := by decide

/-- LdBVxStoresDecimalDigits, LdMiVxStoresTheBlock: the canonical form, and the last register of the block. -/
theorem witness_stores : boundState.memWf ∧ (0xF#4 : Reg).toNat ≤ (0xF#4 : Reg).toNat :=
  ⟨twoBytes_memWf, Nat.le_refl _⟩

/-- A sprite of 15 rows whose first is 0xFF, anchored at (60, 31). -/
def spriteState (quirks : Byte) : State := withRam [(0x300, 0xFF)] (launchWith [(0, 60), (1, 31)] 0x300#16 quirks)

/-- DrwIsXorOfTouchedPixels, DrwIsTheRowDatapath: DXYN completes; row 0 falls on display row 31, and row 14 on row 13 in
wrap mode, on none in clip mode. -/
theorem witness_drw :
    (∃ t, exec (.drw 0#4 1#4 0xF#4) (spriteState 0) = .next t) ∧ 14 < (0xF#4 : Nibble).toNat ∧
    spriteRowAt false 31#8 0 = some 31 ∧ spriteRowAt false 31#8 14 = some 13 ∧
    spriteRowAt true 31#8 0 = some 31 ∧ spriteRowAt true 31#8 14 = none ∧
    (∀ r, r < 1 → spriteRowAt false 31#8 r ≠ some 0) := by
  refine ⟨⟨_, rfl⟩, ?_⟩
  decide

/-- DrwIsXorOfTouchedPixels: pixel (3, 31) is touched, by the last bit of row 0 wrapped; pixel (4, 31) is not. -/
theorem witness_touched :
    Touched (spriteState 0) 60 31 15 3 31 ∧ ¬ Touched (spriteState 0) 60 31 15 4 31 := by
  refine ⟨⟨0, by decide, 7, by decide, by decide, by decide⟩, ?_⟩
  rintro ⟨r, hr, c, hc, hb, ht⟩
  have h : ∀ r, r < 15 → ∀ c, c < 8 → target ((spriteState 0).quirk .displayClipping) 60 31 c r ≠ .pixel 4 31 := by
    decide
  exact h r hr c hc ht

/-- DrawingTwiceRestoresTheDisplay. -/
theorem witness_drawingTwice :
    0#4 ≠ vf ∧ 1#4 ≠ vf ∧ ∃ t u, exec (.drw 0#4 1#4 0xF#4) (spriteState 0) = .next t ∧
      exec (.drw 0#4 1#4 0xF#4) t = .next u := by
  refine ⟨by decide, by decide, ⟨_, _, rfl, rfl⟩⟩

/-- SpriteBitsFallOnDistinctPixels: the last bit of the last row, in each mode, and a dropped one. -/
theorem witness_spriteBits :
    7 < 8 ∧ 14 < 15 ∧ target false 60#8 31#8 7 14 = .pixel 3 13 ∧ target true 56#8 17#8 7 14 = .pixel 63 31 ∧
    target true 57#8 17#8 7 14 = .dropped := by decide

/-- KeySkips: each side of the bound. -/
theorem witness_keySkips :
    ((launchWith [(5, 15)] 0 0).reg 5).toNat ≤ 15 ∧ 15 < ((launchWith [(5, 16)] 0 0).reg 5).toNat := by decide

/-- LdVxKWaitsForARelease: key 15 is the lowest that qualifies; and no key qualifies. -/
theorem witness_ldVxK :
    (let s := { State.reset with fxoaState := 0x8001#16, keypad := 0x0001#16 }
     KeyQualifies s 15 ∧ ∀ j, j < 15 → ¬ KeyQualifies s j) ∧
    (let s := { State.reset with fxoaState := 0x0001#16, keypad := 0x0001#16 }
     ∀ k, k < 16 → ¬ KeyQualifies s k) := by
  unfold KeyQualifies
  decide

/-- KeyPressThenReleaseCompletesTheWait: the highest key. -/
theorem witness_keyPress :
    let s := { State.reset with keypad := 0x8000#16 }
    15 < 16 ∧ s.fxoaState = 0 ∧ s.keypad = 1#16 <<< 15 := by decide

theorem witness_tick : (Session.start (State.reset.setSound 1)).mark = none := by decide

/-- InitSetsEveryElement: the ends of the font and of the rest. -/
theorem witness_init : 79 < 80 ∧ 80 ≤ 4095 ∧ 4095 < 4096 ∧ boundState.doInit.memRead 79 = defaultFont[79] ∧
    boundState.doInit.memRead 80 = 0 ∧ boundState.doInit.memRead 4095 = 0 := by decide

/-- ZeroingCommandsHaveExactRanges: the bytes on either side of 0x200. -/
theorem witness_zeroProgram :
    let s := withRam [(0x1FF, 0x11), (0x200, 0x61)] State.reset
    s.zeroProgram.memRead 0x1FF = 0x11#8 ∧ s.zeroProgram.memRead 0x200 = 0#8 := by decide

/-- FaultMarkIsAbsorbing: a Step with an undefined outcome, after a fetch and at the first `pc` out of range (`opcode`
is then kept), and the run marked by it. -/
theorem witness_faultMark :
    (let z := Session.start (State.reset.withFetchWord 16 0x00EE)
     z.mark = none ∧ z.machine.pc.toNat ≤ 0xFFF ∧ faultOf 0x00EE State.reset = some .stackUnderflow ∧
       (z.issue .step).mark ≠ none) ∧
    (let z := Session.start { State.reset with pc := 0x1000#16, opcode := 0x1234#16 }
     z.mark = none ∧ ¬ z.machine.pc.toNat ≤ 0xFFF ∧ (z.issue .step).mark = some (.fault .pcRange) ∧
       (z.issue .step).machine.opcode = 0x1234#16) := by decide

/-- FaultMarkIsAbsorbing: a refused Step. -/
theorem witness_refusedMark :
    let z := Session.start (refusing.withFetchWord 16 0x0123)
    z.mark = none ∧ (match step z.machine with
      | .refused r => decide (r = .unlistedHandler 0x0123#16)
      | _ => false) = true := by decide

/-- HostWritesOneElement: a canonical `ram`, and its last byte written. -/
theorem witness_hostWrites :
    boundState.memWf ∧ (boundState.hostWrite (.ram 0xFFF#12 0x55#8)).memRead 0xFFF = 0x55#8 :=
  ⟨twoBytes_memWf, by decide⟩

/-- LaunchPlacesTheProgram: the longest image. -/
theorem witness_launch_longest : (List.replicate 3584 (0x12#8 : Byte)).length ≤ 3584 := by
  rw [List.length_replicate]

/-- LaunchPlacesTheProgram: a short image in place, its neighbours as after `Init`. -/
theorem witness_launch :
    ((launch boundState 0x20#8 [0x12#8, 0x34#8]).map fun z =>
      [z.machine.memRead 0x1FF, z.machine.memRead 0x200, z.machine.memRead 0x201, z.machine.memRead 0x202,
        z.machine.memRead 0xFFF, z.machine.quirks]) = some [0#8, 0x12#8, 0x34#8, 0#8, 0#8, 0x20#8] := by decide

end Sys2Proof.Tests
end

section
/-!
PROOFS. Jumps and conditional skips: 1NNN, 3XNN, 4XNN, 5XY0, 9XY0, BNNN (spec/40_control_flow.md R102, R104 to R108).
-/

namespace Sys2Proof.Machine

/-! ## Rows of the opcode table (spec/30_encoding.md R76) -/

/-- A row whose mask fixes the top nibble alone: it is enough to decode from that nibble. -/
theorem decodesRow_of_fieldT {rowValue : Word} {build : Word → Instr}
    (h : ∀ w, fieldT w = rowValue.extractLsb' 12 4 → decode w = .instr (build w)) :
    DecodesRow 0xF000#16 rowValue build :=
  fun w hw => h w (fieldT_of_and hw (by decide))

/-- A row whose mask fixes the top and the low nibble: it is enough to decode from those two. -/
theorem decodesRow_of_fieldT_fieldN {rowValue : Word} {build : Word → Instr}
    (h : ∀ w, fieldT w = rowValue.extractLsb' 12 4 → fieldN w = rowValue.extractLsb' 0 4 →
      decode w = .instr (build w)) :
    DecodesRow 0xF00F#16 rowValue build :=
  fun w hw => h w (fieldT_of_and hw (by decide)) (fieldN_of_and hw (by decide))

/-! ## The targets of jumps -/

/-- A 12-bit address is not changed by the mask on `pc` (spec/20_memory.md R55). -/
theorem State.setPc_addr_toNat (s : State) (nnn : Addr) : (s.setPc (nnn.setWidth 16)).pc.toNat = nnn.toNat := by
  have hnnn := nnn.isLt
  rw [State.setPc_toNat, BitVec.toNat_setWidth, Config.ramSize]
  omega

/-- The 16-bit sum of an address and a byte does not overflow, so only the mask on `pc` wraps it (R108). -/
theorem State.setPc_addr_add_toNat (s : State) (nnn : Addr) (b : Byte) :
    (s.setPc (nnn.setWidth 16 + b.setWidth 16)).pc.toNat = (nnn.toNat + b.toNat) % Config.ramSize := by
  have hnnn := nnn.isLt
  have hb := b.isLt
  rw [State.setPc_toNat, BitVec.toNat_add, BitVec.toNat_setWidth, BitVec.toNat_setWidth, Config.ramSize]
  omega

/-- Writing to `pc` the value it has changes nothing. -/
theorem State.setPc_eq_self {s : State} {w : Word} (h : (s.setPc w).pc = s.pc) : s.setPc w = s := by
  rw [State.setPc_pc] at h
  rw [State.setPc, h]

/-! ## The end of a skip (R100) -/

/-- An instruction that ends in a skip taken exactly when `p` holds completes at `pc + 4` or `pc + 2`, mod 4096, and
changes nothing else. -/
theorem skip_completes {s : State} {i : Instr} {taken : Bool} {p : Prop} [Decidable p]
    (hi : exec i s = .next (s.skipIf taken)) (hp : taken = true ↔ p) :
    ∃ t, exec i s = .next t ∧ t.pc.toNat = (s.pc.toNat + if p then 4 else 2) % 4096 ∧ UnchangedBut [.pc] s t := by
  refine ⟨s.skipIf taken, hi, ?_, s.skipIf_unchanged taken⟩
  simp only [State.skipIf_pc_toNat, hp, Config.ramSize]

/-! ## The statements -/

/-- Settles O21: the mask on `pc` keeps every 12-bit target, and a `pc` written with its own value is no change. -/
theorem jpSetsPc : Obligations.JpSetsPc := by
  refine ⟨decodesRow_of_fieldT decode_top1, fun nnn s => ?_⟩
  have hpc : (s.setPc (nnn.setWidth 16)).pc.toNat = nnn.toNat := s.setPc_addr_toNat nnn
  refine ⟨s.setPc (nnn.setWidth 16), rfl, hpc, s.setPc_unchanged _, fun hself => ?_⟩
  exact State.setPc_eq_self (BitVec.eq_of_toNat_eq (hpc.trans hself.symm))

/-- Settles O25: both forms are skips, on equality and on inequality with the immediate. -/
theorem immediateSkips : Obligations.ImmediateSkips := by
  refine ⟨decodesRow_of_fieldT decode_top3, decodesRow_of_fieldT decode_top4, fun x nn s => ⟨?_, ?_⟩⟩
  · exact skip_completes (taken := s.reg x == nn) rfl beq_iff_eq
  · exact skip_completes (taken := s.reg x != nn) rfl bne_iff_ne

/-- Settles O26: both forms are skips, on equality and on inequality of the two registers. -/
theorem registerSkips : Obligations.RegisterSkips := by
  refine ⟨decodesRow_of_fieldT_fieldN fun w hT hN => ?_, decodesRow_of_fieldT_fieldN fun w hT hN => ?_,
    fun x y s => ⟨?_, ?_⟩⟩
  · exact (decode_top5 w hT).trans (if_pos hN)
  · exact (decode_top9 w hT).trans (if_pos hN)
  · exact skip_completes (taken := s.reg x == s.reg y) rfl beq_iff_eq
  · exact skip_completes (taken := s.reg x != s.reg y) rfl bne_iff_ne

/-- Settles O27: the jump adds the byte that the quirk selects, and X is the top nibble of NNN. -/
theorem jpV0AddsTheOffset : Obligations.JpV0AddsTheOffset := by
  refine ⟨decodesRow_of_fieldT fun w hT => ?_, fun x nnn s => ?_⟩
  · rw [decode_topB w hT, fieldNNN_top]
  · exact ⟨s.setPc (nnn.setWidth 16 + (s.jumpOffset x).setWidth 16), rfl,
      s.setPc_addr_add_toNat nnn (s.jumpOffset x), s.setPc_unchanged _⟩

end Sys2Proof.Machine
end

section
/-!
PROOFS. Register loads and additions: 6XNN, 7XNN, 8XY0, 8XY4 (spec/41_register_alu.md R121 to R123, R127).
-/

namespace Sys2Proof.Machine

/-! ## Rows of group 8 (spec/30_encoding.md R74, R76) -/

/-- A row of group 8: it is enough to decode within the group from the low nibble. -/
theorem decodesRow_of_decodeGroup8 {rowValue : Word} {build : Word → Instr}
    (hrow : rowValue.extractLsb' 12 4 = 0x8#4)
    (h : ∀ w, fieldN w = rowValue.extractLsb' 0 4 → decodeGroup8 w = .instr (build w)) :
    DecodesRow 0xF00F#16 rowValue build :=
  decodesRow_of_fieldT_fieldN fun w hT hN => (decode_top8 w (hT.trans hrow)).trans (h w hN)

/-! ## Instructions that end in the normal advance (spec/40_control_flow.md R100) -/

/-- An instruction whose updates spare `pc` and that ends in the normal advance completes at `pc + 2`, mod 4096, with
the registers those updates leave, and the advance adds only `pc` to what has changed. -/
theorem advance_completes {es : List Element} {s u : State} {i : Instr} (hi : exec i s = .next u.advance)
    (hu : UnchangedBut es s u) (hpc : Element.pc ∉ es) :
    ∃ t, exec i s = .next t ∧ Advanced s t ∧ UnchangedBut (es ++ [.pc]) s t ∧ ∀ r, t.reg r = u.reg r := by
  have hpcu : u.pc = s.pc := hu .pc hpc
  refine ⟨u.advance, hi, ?_, hu.append u.advance_unchanged, u.reg_advance⟩
  rw [Advanced, State.advance_pc_toNat, hpcu]

/-- An instruction that loads one register and advances. -/
theorem setReg_completes {s : State} {i : Instr} {x : Reg} {b : Byte} (hi : exec i s = .next (s.setReg x b).advance) :
    ∃ t, exec i s = .next t ∧ t.reg x = b ∧ RegsUnchangedBut [x] s t ∧ Advanced s t ∧ UnchangedBut [.v, .pc] s t := by
  obtain ⟨t, ht, hadv, hframe, hreg⟩ := advance_completes hi (s.setReg_unchanged x b) (by decide)
  refine ⟨t, ht, (hreg x).trans (s.reg_setReg_same x b), fun r hr => ?_, hadv, hframe⟩
  rw [hreg, State.reg_setReg, if_neg (List.ne_of_not_mem_cons hr)]

/-! ## The carry (R127) -/

/-- The result and the flag are writes of registers alone. -/
theorem State.writeResultThenFlag_unchanged (s : State) (x : Reg) (result flag : Byte) :
    UnchangedBut [.v] s (s.writeResultThenFlag x result flag) :=
  (s.setReg_unchanged x result).trans ((s.setReg x result).setReg_unchanged vf flag)

theorem flagByte_toNat (b : Bool) : (flagByte b).toNat = if b then 1 else 0 := by
  cases b <;> rfl

theorem carryFlag_toNat (a b : Byte) : (carryFlag a b).toNat = if a.toNat + b.toNat > 255 then 1 else 0 := by
  simp only [carryFlag, flagByte_toNat, decide_eq_true_eq]

/-! ## The statements -/

/-- Settles O32: the flag is the last write, so VF holds the carry also when it is the destination; both addends are
the values on entry. -/
theorem addVxVyWritesSumThenCarry : Obligations.AddVxVyWritesSumThenCarry := by
  refine ⟨decodesRow_of_decodeGroup8 (by decide) fun w hN => by simp [decodeGroup8, hN], fun x y s => ?_⟩
  have hu := s.writeResultThenFlag_unchanged x (s.reg x + s.reg y) (carryFlag (s.reg x) (s.reg y))
  obtain ⟨t, ht, hadv, hframe, hreg⟩ := advance_completes (i := .addVxVy x y) rfl hu (by decide)
  refine ⟨t, ht, hadv, hframe, fun r => ?_⟩
  rw [hreg, State.reg_writeResultThenFlag, apply_ite BitVec.toNat, apply_ite BitVec.toNat, carryFlag_toNat,
    BitVec.toNat_add]

/-- Settles O28: a load of the immediate. -/
theorem ldVxNnLoadsTheImmediate : Obligations.LdVxNnLoadsTheImmediate :=
  ⟨decodesRow_of_fieldT decode_top6, fun _ _ _ => setReg_completes rfl⟩

/-- Settles O29: a load of the sum, which the width of a register reduces mod 256. -/
theorem addVxNnAddsWithoutFlag : Obligations.AddVxNnAddsWithoutFlag := by
  refine ⟨decodesRow_of_fieldT decode_top7, fun x nn s => ?_⟩
  obtain ⟨t, ht, hx, hrest⟩ := setReg_completes (s := s) (i := .addVxNn x nn) rfl
  exact ⟨t, ht, by rw [hx, BitVec.toNat_add], hrest⟩

/-- Settles O30: a load of the other register; no quirk is read. -/
theorem ldVxVyCopies : Obligations.LdVxVyCopies :=
  ⟨decodesRow_of_decodeGroup8 (by decide) fun w hN => by simp [decodeGroup8, hN],
    fun _ _ _ => setReg_completes rfl⟩

end Sys2Proof.Machine
end

section
/-!
PROOFS. Index loads and sums and the decimal store: ANNN, FX1E, FX29, FX33 (spec/42_index_memory.md R150 to R153).
-/

namespace Sys2Proof.Machine

/-! ## Rows of group F (spec/30_encoding.md R74, R76) -/

/-- A row of group F: it is enough to decode within the group from the low byte. -/
theorem decodesRow_of_decodeGroupF {rowValue : Word} {build : Word → Instr}
    (hrow : rowValue.extractLsb' 12 4 = 0xF#4)
    (h : ∀ w, fieldNN w = rowValue.extractLsb' 0 8 → decodeGroupF w = .instr (build w)) :
    DecodesRow 0xF0FF#16 rowValue build := fun w hw =>
  have hT : fieldT w = 0xF#4 := (fieldT_of_and hw (by decide)).trans hrow
  (decode_topF w hT).trans (h w (fieldNN_of_and hw (by decide)))

/-! ## Writes of `I` (spec/10_state.md R25) -/

/-- An instruction that writes `I` and advances: `I` is masked to 12 bits. -/
theorem setI_completes {s : State} {i : Instr} {w : Word} (hi : exec i s = .next (s.setI w).advance) :
    ∃ t, exec i s = .next t ∧ t.i.toNat = w.toNat % Config.ramSize ∧ Advanced s t ∧ UnchangedBut [.i, .pc] s t :=
  ⟨(s.setI w).advance, hi, s.setI_toNat w, (s.setI w).advance_pc_toNat,
    (s.setI_unchanged w).append (s.setI w).advance_unchanged⟩

/-- Five bytes per glyph: no glyph address needs more than 12 bits, also for a full register (D18). -/
theorem glyphAddress_toNat_mod (b : Byte) : (glyphAddress b).toNat % Config.ramSize = b.toNat * 5 := by
  have hb := b.isLt
  rw [glyphAddress, BitVec.toNat_ofNat, Config.ramSize]
  omega

/-! ## Frames of byte writes (spec/20_memory.md R54) -/

theorem State.memWrite_ram_unchangedBut (s : State) (a : Nat) (b : Byte) :
    RamUnchangedBut [a] s (s.memWrite a b) :=
  fun _ hk => State.memRead_memWrite_other s b (hk a List.mem_cons_self)

/-- Two updates in a row leave alone every byte that neither touches. -/
theorem RamUnchangedBut.append {as bs : List Nat} {s t u : State} (h1 : RamUnchangedBut as s t)
    (h2 : RamUnchangedBut bs t u) : RamUnchangedBut (as ++ bs) s u := fun a ha =>
  (h2 a fun b hb => ha b (List.mem_append_right as hb)).trans
    (h1 a fun b hb => ha b (List.mem_append_left bs hb))

/-- Fewer than 4096 bytes from `I` do not overlap, also where they wrap (spec/42_index_memory.md R156). -/
theorem State.indexed_mod_ne (s : State) {j k : Nat} (hjk : j < k) (hk : k < Config.ramSize) :
    s.indexed j % Config.ramSize ≠ s.indexed k % Config.ramSize := by
  simp only [State.indexed, Config.ramSize] at hk ⊢
  omega

/-! ## Decimal digits (R153) -/

theorem bcdHundreds_toNat (b : Byte) : (bcdHundreds b).toNat = b.toNat / 100 := by
  have hb := b.isLt
  rw [bcdHundreds, BitVec.toNat_ofNat]
  omega

theorem bcdTens_toNat (b : Byte) : (bcdTens b).toNat = b.toNat / 10 % 10 := by
  rw [bcdTens, BitVec.toNat_ofNat]
  omega

theorem bcdOnes_toNat (b : Byte) : (bcdOnes b).toNat = b.toNat % 10 := by
  rw [bcdOnes, BitVec.toNat_ofNat]
  omega

/-- The three stores of FX33 (`exec_ldBVx`). -/
def State.storeDigits (s : State) (b : Byte) : State :=
  ((s.memWrite (s.indexed 0) (bcdHundreds b)).memWrite (s.indexed 1) (bcdTens b)).memWrite (s.indexed 2) (bcdOnes b)

theorem exec_ldBVx (x : Reg) (s : State) : exec (.ldBVx x) s = .next (s.storeDigits (s.reg x)).advance := rfl

theorem State.storeDigits_unchanged (s : State) (b : Byte) : UnchangedBut [.ram] s (s.storeDigits b) :=
  ((s.memWrite_unchanged _ _).trans (State.memWrite_unchanged _ _ _)).trans (State.memWrite_unchanged _ _ _)

theorem State.storeDigits_ram_unchangedBut (s : State) (b : Byte) :
    RamUnchangedBut [s.indexed 0, s.indexed 1, s.indexed 2] s (s.storeDigits b) :=
  ((s.memWrite_ram_unchangedBut _ _).append (State.memWrite_ram_unchangedBut _ _ _)).append
    (State.memWrite_ram_unchangedBut _ _ _)

theorem State.storeDigits_memWf {s : State} (hs : s.memWf) (b : Byte) : (s.storeDigits b).memWf :=
  State.memWrite_memWf (State.memWrite_memWf (State.memWrite_memWf hs _ _) _ _) _ _

/-- Each digit is read back where it was stored: the later stores are to other addresses. -/
theorem State.storeDigits_memRead {s : State} (hs : s.memWf) (b : Byte) :
    (s.storeDigits b).memRead (s.indexed 0) = bcdHundreds b ∧
    (s.storeDigits b).memRead (s.indexed 1) = bcdTens b ∧
    (s.storeDigits b).memRead (s.indexed 2) = bcdOnes b := by
  have hs1 := State.memWrite_memWf hs (s.indexed 0) (bcdHundreds b)
  have hs2 := State.memWrite_memWf hs1 (s.indexed 1) (bcdTens b)
  have h01 := s.indexed_mod_ne (j := 0) (k := 1) (by decide) (by decide)
  have h02 := s.indexed_mod_ne (j := 0) (k := 2) (by decide) (by decide)
  have h12 := s.indexed_mod_ne (j := 1) (k := 2) (by decide) (by decide)
  refine ⟨?hundreds, ?tens, ?ones⟩
  case hundreds =>
    rw [State.storeDigits, State.memRead_memWrite_other _ _ h02, State.memRead_memWrite_other _ _ h01,
      State.memRead_memWrite_same hs]
  case tens => rw [State.storeDigits, State.memRead_memWrite_other _ _ h12, State.memRead_memWrite_same hs1]
  case ones => rw [State.storeDigits, State.memRead_memWrite_same hs2]

/-! ## The statements -/

/-- Settles O38: three byte writes at distinct addresses, then the normal advance, which leaves `ram` alone. -/
theorem ldBVxStoresDecimalDigits : Obligations.LdBVxStoresDecimalDigits := by
  refine ⟨decodesRow_of_decodeGroupF (by decide) fun w hNN => by simp [decodeGroupF, hNN], fun x s => ?_⟩
  have hframe := (s.storeDigits_unchanged (s.reg x)).append (State.advance_unchanged _)
  refine ⟨(s.storeDigits (s.reg x)).advance, exec_ldBVx x s, State.advance_pc_toNat _, hframe,
    s.storeDigits_ram_unchangedBut _, fun hs => ⟨State.storeDigits_memWf hs _, ?_⟩⟩
  obtain ⟨hhundreds, htens, hones⟩ := State.storeDigits_memRead hs (s.reg x)
  simp only [State.memRead_advance, hhundreds, htens, hones, bcdHundreds_toNat, bcdTens_toNat, bcdOnes_toNat, and_self]

/-- Settles O37: each form writes `I` and advances; the mask on `I` wraps the sum of FX1E, and changes neither a 12-bit
immediate nor a glyph address. -/
theorem indexLoadsAndSums : Obligations.IndexLoadsAndSums := by
  refine ⟨decodesRow_of_fieldT decode_topA,
    decodesRow_of_decodeGroupF (by decide) fun w hNN => by simp [decodeGroupF, hNN],
    decodesRow_of_decodeGroupF (by decide) fun w hNN => by simp [decodeGroupF, hNN],
    fun nnn s => ?ldI, fun x s => ⟨?addIVx, ?ldFVx⟩⟩
  case ldI =>
    obtain ⟨t, ht, hI, hrest⟩ := setI_completes (s := s) (i := .ldI nnn) rfl
    have hnnn := nnn.isLt
    refine ⟨t, ht, ?_, hrest⟩
    rw [hI, BitVec.toNat_setWidth, Config.ramSize]
    omega
  case addIVx =>
    obtain ⟨t, ht, hI, hrest⟩ := setI_completes (s := s) (i := .addIVx x) rfl
    refine ⟨t, ht, ?_, hrest⟩
    rw [hI, BitVec.toNat_add, BitVec.toNat_setWidth, Config.ramSize]
    omega
  case ldFVx =>
    obtain ⟨t, ht, hI, hrest⟩ := setI_completes (s := s) (i := .ldFVx x) rfl
    exact ⟨t, ht, hI.trans (glyphAddress_toNat_mod _), hrest⟩

end Sys2Proof.Machine
end

section
/-!
PROOFS. The wait for a key and the timer registers: FX0A, FX07, FX15, FX18 (spec/44_keypad_timer_regs.md R193, R195 to
R197).
-/

namespace Sys2Proof.Machine

/-! ## The key that FX0A reports (R193) -/

/-- The test that the search for a released key makes of each key is the condition of the rule. -/
theorem keyQualifies_iff (s : State) (k : Nat) :
    (s.markedKeys.getLsbD k && !s.keyDown k) = true ↔ KeyQualifies s k := by
  rw [Bool.and_eq_true, Bool.not_eq_true', State.markedKeys, State.keyDown, KeyQualifies]

/-- A reported key is the lowest that qualifies. -/
theorem State.releasedKey_eq_some_iff {s : State} {k : Nat} :
    s.releasedKey = some k ↔ k < 16 ∧ KeyQualifies s k ∧ ∀ j, j < k → ¬ KeyQualifies s j := by
  simp only [State.releasedKey, List.find?_range_eq_some, keyQualifies_iff, List.mem_range, Bool.not_eq_true',
    ← Bool.not_eq_true, and_left_comm]

/-- No key is reported exactly when none qualifies. -/
theorem State.releasedKey_eq_none_iff {s : State} :
    s.releasedKey = none ↔ ∀ k, k < 16 → ¬ KeyQualifies s k := by
  simp only [State.releasedKey, List.find?_range_eq_none, Bool.not_eq_true', ← Bool.not_eq_true, keyQualifies_iff]

/-! ## The two outcomes of FX0A (R193) -/

theorem exec_ldVxK (x : Reg) (s : State) : exec (.ldVxK x) s = execLdVxK x s := rfl

theorem exec_ldVxK_of_released {s : State} {k : Nat} (x : Reg) (hk : s.releasedKey = some k) :
    exec (.ldVxK x) s = .next ((s.setReg x (BitVec.ofNat 8 k)).setFxoa 0).advance := by
  rw [exec_ldVxK, execLdVxK, hk]

theorem exec_ldVxK_of_not_released {s : State} (x : Reg) (hk : s.releasedKey = none) :
    exec (.ldVxK x) s = .next (s.setFxoa s.markedKeys) := by
  rw [exec_ldVxK, execLdVxK, hk]

/-! ## Ticks after a write of `sound_timer` (spec/60_exceptions.md R220) -/

theorem countdown_toNat (b : Byte) : (countdown b).toNat = b.toNat - 1 := by
  rw [countdown]
  split <;> bv_omega

/-- `k` countdowns take `k` off, and stop at 0. -/
theorem countdown_iterate_toNat (b : Byte) (k : Nat) : (countdown^[k] b).toNat = b.toNat - k := by
  induction k with
  | zero => rfl
  | succ k ih => rw [Function.iterate_succ_apply', countdown_toNat, ih, Nat.sub_sub]

/-- On `sound_timer` Ticks are countdowns. -/
theorem State.soundTimer_tick_iterate (s : State) (k : Nat) :
    (State.tick^[k] s).soundTimer = countdown^[k] s.soundTimer :=
  Function.Semiconj.iterate_right (f := State.soundTimer) (fun _ => rfl) k s

theorem State.beeps_iff (s : State) : s.beeps = true ↔ 0 < s.soundTimer.toNat := by
  rw [State.beeps, bne_iff_ne]
  bv_omega

/-- The Tick after `k` Ticks signals sound exactly when `sound_timer` was more than `k`. -/
theorem State.beeps_tick_iterate (s : State) (k : Nat) :
    (State.tick^[k] s).beeps = decide (k < s.soundTimer.toNat) := by
  rw [Bool.eq_iff_iff, decide_eq_true_iff, State.beeps_iff, s.soundTimer_tick_iterate, countdown_iterate_toNat,
    Nat.sub_pos_iff_lt]

/-! ## The statements -/

/-- Settles O48: the ascending search finds the lowest marked key that is up, if there is one; a key number fits in a
register. -/
theorem ldVxKWaitsForARelease : Obligations.LdVxKWaitsForARelease := by
  refine ⟨decodesRow_of_decodeGroupF (by decide) fun w hNN => by simp [decodeGroupF, hNN],
    fun x s => ⟨fun k hk hq hlow => ?released, fun hnone => ?waiting⟩⟩
  case released =>
    have hkey : s.releasedKey = some k := State.releasedKey_eq_some_iff.2 ⟨hk, hq, hlow⟩
    have hbyte : (BitVec.ofNat 8 k).toNat = k := by
      rw [BitVec.toNat_ofNat]
      omega
    have hframe := ((s.setReg_unchanged x (BitVec.ofNat 8 k)).append (State.setFxoa_unchanged _ 0)).append
      (State.advance_unchanged _)
    refine ⟨_, exec_ldVxK_of_released x hkey, ?_, fun r hr => ?_, rfl, State.advance_pc_toNat _, hframe⟩
    · rw [State.reg_advance, State.reg_setFxoa, State.reg_setReg_same, hbyte]
    · rw [State.reg_advance, State.reg_setFxoa, State.reg_setReg, if_neg (List.ne_of_not_mem_cons hr)]
  case waiting =>
    exact ⟨_, exec_ldVxK_of_not_released x (State.releasedKey_eq_none_iff.2 hnone), rfl, s.setFxoa_unchanged _⟩

/-- Settles O50: each form is one write and the normal advance; each Tick after FX18 takes one off the timer it set, so
that the first `V[x]` of them find it nonzero. -/
theorem timerRegisterMoves : Obligations.TimerRegisterMoves := by
  refine ⟨decodesRow_of_decodeGroupF (by decide) fun w hNN => by simp [decodeGroupF, hNN],
    decodesRow_of_decodeGroupF (by decide) fun w hNN => by simp [decodeGroupF, hNN],
    decodesRow_of_decodeGroupF (by decide) fun w hNN => by simp [decodeGroupF, hNN],
    fun x s => ⟨?ldVxDt, ?ldDtVx, ?ldStVx⟩⟩
  case ldVxDt => exact setReg_completes rfl
  case ldDtVx =>
    exact ⟨(s.setDelay (s.reg x)).advance, rfl, rfl, State.advance_pc_toNat _,
      (s.setDelay_unchanged _).append (State.advance_unchanged _)⟩
  case ldStVx =>
    exact ⟨(s.setSound (s.reg x)).advance, rfl, rfl, State.advance_pc_toNat _,
      (s.setSound_unchanged _).append (State.advance_unchanged _), fun k => State.beeps_tick_iterate _ k⟩

end Sys2Proof.Machine
end

section
/-!
PROOFS. The zeroing commands ZeroRam, ZeroProgram and ZeroDisplay (spec/70_reset_and_hazards.md R242 to R244, R246).
-/

namespace Sys2Proof.Machine

/-! ## Bytes of `ram` -/

/-- Above the font `Init` leaves zeros (spec/10_state.md R40). -/
theorem unlisted_of_fontSize_le (font : Font) {a : Nat} (ha : Config.fontSize ≤ a) : unlisted font a = 0 :=
  dif_neg (Nat.not_lt.2 ha)

/-- Dropping the cells whose address fails `p` leaves those bytes as unlisted, and every other byte as it was. -/
theorem Memory.get_filter_key (font : Font) (m : Memory) (p : Nat → Bool) (a : Nat) :
    Memory.get font (m.filter fun c => p c.1) a = if p a then Memory.get font m a else unlisted font a := by
  rw [Memory.get, lookup_filter_key]
  split <;> rfl

theorem State.memRead_of_lt (s : State) {a : Nat} (ha : a < 4096) :
    s.memRead a = Memory.get s.params.font s.ram a := by
  rw [State.memRead, Config.ramSize, Nat.mod_eq_of_lt ha]

/-- Replacing the cells of `ram` changes no other element. -/
theorem State.withMemory_unchanged (s : State) (m : Memory) : UnchangedBut [.ram] s { s with ram := m } := by
  intro e he
  cases e with
  | ram => exact absurd List.mem_cons_self he
  | v => exact fun _ => rfl
  | _ => rfl

/-! ## The commands -/

theorem State.zeroRam_memRead (s : State) (a : Nat) : s.zeroRam.memRead a = 0 :=
  Memory.get_zeros s.params.font (a % Config.ramSize)

/-- The program area lies above the font, so its dropped bytes read as zero (R243). -/
theorem State.zeroProgram_memRead (s : State) {a : Nat} (ha : a < 4096) :
    s.zeroProgram.memRead a = if 0x200 ≤ a then 0 else s.memRead a := by
  have hread : s.zeroProgram.memRead a =
      if decide (a < 0x200) then Memory.get s.params.font s.ram a else unlisted s.params.font a :=
    (s.zeroProgram.memRead_of_lt ha).trans (Memory.get_filter_key _ _ (fun k => decide (k < 0x200)) a)
  rw [hread]
  by_cases hprog : 0x200 ≤ a
  · have hzero : unlisted s.params.font a = 0 :=
      unlisted_of_fontSize_le _ (by rw [Config.fontSize]; omega)
    simp [hprog, Nat.not_lt.2 hprog, hzero]
  · simp [hprog, Nat.not_le.1 hprog, s.memRead_of_lt ha]

/-- `Reset` neither reads nor writes `ram`, and `ZeroProgram` touches nothing else (R246). -/
theorem State.doReset_zeroProgram (s : State) : s.doReset.zeroProgram = s.zeroProgram.doReset := rfl

/-! ## The statement -/

/-- Settles O57: each command's range byte by byte or pixel by pixel, its frame, and the order of a restart. -/
theorem zeroingCommandsHaveExactRanges : Obligations.ZeroingCommandsHaveExactRanges := fun s =>
  ⟨s.zeroRam_memRead, s.withMemory_unchanged _,
    fun _ ha => s.zeroProgram_memRead ha, s.withMemory_unchanged _,
    Display.pix_clear, s.setDisplay_unchanged Display.clear,
    s.doReset_zeroProgram⟩

end Sys2Proof.Machine
end

section
/-!
PROOFS. The decoder and the encoder are inverse to each other, and are the opcode table (spec/30_encoding.md R72 to
R81).
-/

namespace Sys2Proof

open Machine (decodesRow_of_fieldT decodesRow_of_fieldT_fieldN)

/-! ## The bits a row fixes, by the fields they make up (R71) -/

theorem and_of_fieldT {w : Word} {t : Nibble} (hT : fieldT w = t) : w &&& 0xF000#16 = t.setWidth 16 <<< 12 := by
  subst hT
  ext k hk
  simp only [fieldT]
  interval_cases k <;> simp

theorem and_of_fieldT_fieldN {w : Word} {t n : Nibble} (hT : fieldT w = t) (hN : fieldN w = n) :
    w &&& 0xF00F#16 = t.setWidth 16 <<< 12 ||| n.setWidth 16 := by
  subst hT hN
  ext k hk
  simp only [fieldT, fieldN]
  interval_cases k <;> simp

theorem and_of_fieldT_fieldNN {w : Word} {t : Nibble} {nn : Byte} (hT : fieldT w = t) (hNN : fieldNN w = nn) :
    w &&& 0xF0FF#16 = t.setWidth 16 <<< 12 ||| nn.setWidth 16 := by
  subst hT hNN
  ext k hk
  simp only [fieldT, fieldNN]
  interval_cases k <;> simp

/-! ## A word is its fixed bits and its fields (R72) -/

theorem encodeXNN_fields {w base : Word} (h : w &&& 0xF000#16 = base) :
    encodeXNN base (fieldX w) (fieldNN w) = w := by
  subst h
  ext k hk
  simp only [encodeXNN, fieldX, fieldNN]
  interval_cases k <;> simp

theorem encodeXY_fields {w base : Word} (h : w &&& 0xF00F#16 = base) : encodeXY base (fieldX w) (fieldY w) = w := by
  subst h
  ext k hk
  simp only [encodeXY, fieldX, fieldY]
  interval_cases k <;> simp

theorem encodeXYN_fields {w base : Word} (h : w &&& 0xF000#16 = base) :
    encodeXY base (fieldX w) (fieldY w) ||| (fieldN w).setWidth 16 = w := by
  subst h
  ext k hk
  simp only [encodeXY, fieldX, fieldY, fieldN]
  interval_cases k <;> simp

theorem encodeX_fields {w base : Word} (h : w &&& 0xF0FF#16 = base) : encodeX base (fieldX w) = w := by
  subst h
  ext k hk
  simp only [encodeX, fieldX]
  interval_cases k <;> simp

theorem encodeA_fields {w base : Word} (h : w &&& 0xF000#16 = base) : encodeA base (fieldNNN w) = w := by
  subst h
  ext k hk
  simp only [encodeA, fieldNNN]
  interval_cases k <;> simp

/-! ## The instruction of a row with the operands of a word -/

/-- The instruction in `i`'s row whose operands are the fields of `w` (R71, R72): what R76 says that a word of that row
stands for (`decode_of_row`). -/
def Instr.readFields (w : Word) : Instr → Instr
  | .cls => .cls
  | .ret => .ret
  | .jp _ => .jp (fieldNNN w)
  | .call _ => .call (fieldNNN w)
  | .seVxNn _ _ => .seVxNn (fieldX w) (fieldNN w)
  | .sneVxNn _ _ => .sneVxNn (fieldX w) (fieldNN w)
  | .seVxVy _ _ => .seVxVy (fieldX w) (fieldY w)
  | .ldVxNn _ _ => .ldVxNn (fieldX w) (fieldNN w)
  | .addVxNn _ _ => .addVxNn (fieldX w) (fieldNN w)
  | .ldVxVy _ _ => .ldVxVy (fieldX w) (fieldY w)
  | .orVxVy _ _ => .orVxVy (fieldX w) (fieldY w)
  | .andVxVy _ _ => .andVxVy (fieldX w) (fieldY w)
  | .xorVxVy _ _ => .xorVxVy (fieldX w) (fieldY w)
  | .addVxVy _ _ => .addVxVy (fieldX w) (fieldY w)
  | .sub _ _ => .sub (fieldX w) (fieldY w)
  | .shr _ _ => .shr (fieldX w) (fieldY w)
  | .subn _ _ => .subn (fieldX w) (fieldY w)
  | .shl _ _ => .shl (fieldX w) (fieldY w)
  | .sneVxVy _ _ => .sneVxVy (fieldX w) (fieldY w)
  | .ldI _ => .ldI (fieldNNN w)
  | .jpV0 _ _ => .jpV0 (fieldX w) (fieldNNN w)
  | .rnd _ _ => .rnd (fieldX w) (fieldNN w)
  | .drw _ _ _ => .drw (fieldX w) (fieldY w) (fieldN w)
  | .skp _ => .skp (fieldX w)
  | .sknp _ => .sknp (fieldX w)
  | .ldVxDt _ => .ldVxDt (fieldX w)
  | .ldVxK _ => .ldVxK (fieldX w)
  | .ldDtVx _ => .ldDtVx (fieldX w)
  | .ldStVx _ => .ldStVx (fieldX w)
  | .addIVx _ => .addIVx (fieldX w)
  | .ldFVx _ => .ldFVx (fieldX w)
  | .ldBVx _ => .ldBVx (fieldX w)
  | .ldMiVx _ => .ldMiVx (fieldX w)
  | .ldVxMi _ => .ldVxMi (fieldX w)

/-- The one relation between operands holds of operands that are fields of one word (R72, R108). -/
theorem Instr.wf_readFields (w : Word) (i : Instr) : (i.readFields w).wf = true := by
  cases i with
  | jpV0 => exact beq_iff_eq.2 (fieldNNN_top w).symm
  | _ => rfl

/-- The word of a row is the encoding of the row's instruction with that word's fields. -/
theorem encode_readFields {w : Word} {i : Instr} (h : w &&& rowMask i = rowMatch i) : encode (i.readFields w) = w := by
  cases i with
  | cls | ret => exact h.symm.trans BitVec.and_allOnes
  | seVxNn | sneVxNn | ldVxNn | addVxNn | rnd => exact encodeXNN_fields h
  | seVxVy | sneVxVy | ldVxVy | orVxVy | andVxVy | xorVxVy | addVxVy | sub | shr | subn | shl =>
    exact encodeXY_fields h
  | jp | call | ldI | jpV0 => exact encodeA_fields h
  | drw => exact encodeXYN_fields h
  | skp | sknp | ldVxDt | ldVxK | ldDtVx | ldStVx | addIVx | ldFVx | ldBVx | ldMiVx | ldVxMi =>
    exact encodeX_fields h

/-- The operands read back from the word of a well-formed instruction are its own. -/
theorem Instr.readFields_encode {i : Instr} (hi : i.wf = true) : i.readFields (encode i) = i := by
  cases i with
  | cls | ret => rfl
  | seVxNn x nn | sneVxNn x nn | ldVxNn x nn | addVxNn x nn | rnd x nn =>
    simp only [readFields, encode, fieldX_encodeXNN, fieldNN_encodeXNN]
    simp [fieldX, fieldNN]
  | seVxVy x y | sneVxVy x y | ldVxVy x y | orVxVy x y | andVxVy x y | xorVxVy x y | addVxVy x y | sub x y | shr x y
  | subn x y | shl x y =>
    simp only [readFields, encode, fieldX_encodeXY, fieldY_encodeXY]
    simp [fieldX, fieldY]
  | jp nnn | call nnn | ldI nnn =>
    simp only [readFields, encode, fieldNNN_encodeA]
    simp [fieldNNN]
  | jpV0 x nnn =>
    have hnnn : fieldNNN (encodeA 0xB000#16 nnn) = nnn := by
      rw [fieldNNN_encodeA]
      simp [fieldNNN]
    have hx : x = nnn.extractLsb' 8 4 := beq_iff_eq.1 hi
    rw [readFields, encode, ← fieldNNN_top, hnnn, ← hx]
  | drw x y n =>
    simp only [readFields, encode, fieldX_encodeXYN, fieldY_encodeXYN, fieldN_encodeXYN]
    simp [fieldX, fieldY, fieldN]
  | skp x | sknp x | ldVxDt x | ldVxK x | ldDtVx x | ldStVx x | addIVx x | ldFVx x | ldBVx x | ldMiVx x | ldVxMi x =>
    simp only [readFields, encode, fieldX_encodeX]
    simp [fieldX]

/-- The fixed bits of every encoded word are those of its row. -/
theorem encode_and_rowMask (i : Instr) : encode i &&& rowMask i = rowMatch i := by
  cases i with
  | cls => exact Laws.FixedBits.cls
  | ret => exact Laws.FixedBits.ret
  | jp => exact Laws.FixedBits.jp _
  | call => exact Laws.FixedBits.call _
  | seVxNn => exact Laws.FixedBits.seVxNn _ _
  | sneVxNn => exact Laws.FixedBits.sneVxNn _ _
  | seVxVy => exact Laws.FixedBits.seVxVy _ _
  | ldVxNn => exact Laws.FixedBits.ldVxNn _ _
  | addVxNn => exact Laws.FixedBits.addVxNn _ _
  | ldVxVy => exact Laws.FixedBits.ldVxVy _ _
  | orVxVy => exact Laws.FixedBits.orVxVy _ _
  | andVxVy => exact Laws.FixedBits.andVxVy _ _
  | xorVxVy => exact Laws.FixedBits.xorVxVy _ _
  | addVxVy => exact Laws.FixedBits.addVxVy _ _
  | sub => exact Laws.FixedBits.sub _ _
  | shr => exact Laws.FixedBits.shr _ _
  | subn => exact Laws.FixedBits.subn _ _
  | shl => exact Laws.FixedBits.shl _ _
  | sneVxVy => exact Laws.FixedBits.sneVxVy _ _
  | ldI => exact Laws.FixedBits.ldI _
  | jpV0 => exact Laws.FixedBits.jpV0 _ _
  | rnd => exact Laws.FixedBits.rnd _ _
  | drw => exact Laws.FixedBits.drw _ _ _
  | skp => exact Laws.FixedBits.skp _
  | sknp => exact Laws.FixedBits.sknp _
  | ldVxDt => exact Laws.FixedBits.ldVxDt _
  | ldVxK => exact Laws.FixedBits.ldVxK _
  | ldDtVx => exact Laws.FixedBits.ldDtVx _
  | ldStVx => exact Laws.FixedBits.ldStVx _
  | addIVx => exact Laws.FixedBits.addIVx _
  | ldFVx => exact Laws.FixedBits.ldFVx _
  | ldBVx => exact Laws.FixedBits.ldBVx _
  | ldMiVx => exact Laws.FixedBits.ldMiVx _
  | ldVxMi => exact Laws.FixedBits.ldVxMi _

/-! ## The decoder, row by row -/

/-- A word with the fixed bits of a row decodes to the row's instruction, its operands the word's fields (R76). -/
theorem decode_of_row {w : Word} {i : Instr} (h : w &&& rowMask i = rowMatch i) :
    decode w = .instr (i.readFields w) := by
  cases i with
  | cls | ret =>
    obtain rfl : _ = w := h.symm.trans BitVec.and_allOnes
    rfl
  | jp => exact decodesRow_of_fieldT (rowValue := 0x1000#16) decode_top1 w h
  | call => exact decodesRow_of_fieldT (rowValue := 0x2000#16) decode_top2 w h
  | seVxNn => exact decodesRow_of_fieldT (rowValue := 0x3000#16) decode_top3 w h
  | sneVxNn => exact decodesRow_of_fieldT (rowValue := 0x4000#16) decode_top4 w h
  | seVxVy =>
    exact decodesRow_of_fieldT_fieldN (rowValue := 0x5000#16) (fun w hT hN => (decode_top5 w hT).trans (if_pos hN)) w h
  | ldVxNn => exact decodesRow_of_fieldT (rowValue := 0x6000#16) decode_top6 w h
  | addVxNn => exact decodesRow_of_fieldT (rowValue := 0x7000#16) decode_top7 w h
  | ldVxVy | orVxVy | andVxVy | xorVxVy | addVxVy | sub | shr | subn | shl =>
    rw [rowMask, rowMatch] at h
    rw [decode_top8 w (fieldT_of_and h (by decide))]
    simp [decodeGroup8, fieldN_of_and h (by decide), Instr.readFields]
  | sneVxVy =>
    exact decodesRow_of_fieldT_fieldN (rowValue := 0x9000#16) (fun w hT hN => (decode_top9 w hT).trans (if_pos hN)) w h
  | ldI => exact decodesRow_of_fieldT (rowValue := 0xA000#16) decode_topA w h
  | jpV0 => exact decodesRow_of_fieldT (rowValue := 0xB000#16) decode_topB w h
  | rnd => exact decodesRow_of_fieldT (rowValue := 0xC000#16) decode_topC w h
  | drw => exact decodesRow_of_fieldT (rowValue := 0xD000#16) decode_topD w h
  | skp | sknp =>
    rw [rowMask, rowMatch] at h
    rw [decode_topE w (fieldT_of_and h (by decide))]
    simp [decodeGroupE, fieldNN_of_and h (by decide), Instr.readFields]
  | ldVxDt | ldVxK | ldDtVx | ldStVx | addIVx | ldFVx | ldBVx | ldMiVx | ldVxMi =>
    rw [rowMask, rowMatch] at h
    rw [decode_topF w (fieldT_of_and h (by decide))]
    simp [decodeGroupF, fieldNN_of_and h (by decide), Instr.readFields]

theorem decodeGroup8_row {w : Word} {i : Instr} (hT : fieldT w = 0x8#4) (h : decodeGroup8 w = .instr i) :
    w &&& rowMask i = rowMatch i := by
  simp only [decodeGroup8, ite_eq_iff, reduceCtorEq, and_false, or_false, Decoded.instr.injEq] at h
  rcases h with ⟨hN, rfl⟩ | ⟨-, ⟨hN, rfl⟩ | ⟨-, ⟨hN, rfl⟩ | ⟨-, ⟨hN, rfl⟩ | ⟨-, ⟨hN, rfl⟩ | ⟨-, ⟨hN, rfl⟩ |
    ⟨-, ⟨hN, rfl⟩ | ⟨-, ⟨hN, rfl⟩ | ⟨-, hN, rfl⟩⟩⟩⟩⟩⟩⟩⟩
  all_goals simp [rowMask, rowMatch, and_of_fieldT_fieldN hT hN]

theorem decodeGroupE_row {w : Word} {i : Instr} (hT : fieldT w = 0xE#4) (h : decodeGroupE w = .instr i) :
    w &&& rowMask i = rowMatch i := by
  simp only [decodeGroupE, ite_eq_iff, reduceCtorEq, and_false, or_false, Decoded.instr.injEq] at h
  rcases h with ⟨hNN, rfl⟩ | ⟨-, hNN, rfl⟩
  all_goals simp [rowMask, rowMatch, and_of_fieldT_fieldNN hT hNN]

theorem decodeGroupF_row {w : Word} {i : Instr} (hT : fieldT w = 0xF#4) (h : decodeGroupF w = .instr i) :
    w &&& rowMask i = rowMatch i := by
  simp only [decodeGroupF, ite_eq_iff, reduceCtorEq, and_false, or_false, Decoded.instr.injEq] at h
  rcases h with ⟨hNN, rfl⟩ | ⟨-, ⟨hNN, rfl⟩ | ⟨-, ⟨hNN, rfl⟩ | ⟨-, ⟨hNN, rfl⟩ | ⟨-, ⟨hNN, rfl⟩ | ⟨-, ⟨hNN, rfl⟩ |
    ⟨-, ⟨hNN, rfl⟩ | ⟨-, ⟨hNN, rfl⟩ | ⟨-, hNN, rfl⟩⟩⟩⟩⟩⟩⟩⟩
  all_goals simp [rowMask, rowMatch, and_of_fieldT_fieldNN hT hNN]

/-- A word that decodes to an instruction has the fixed bits of its row (R76). -/
theorem row_of_decode {w : Word} {i : Instr} (h : decode w = .instr i) : w &&& rowMask i = rowMatch i := by
  rcases nibble_cases (fieldT w) with hT | hT | hT | hT | hT | hT | hT | hT | hT | hT | hT | hT | hT | hT | hT | hT
  · rw [decode_top0 w hT, decodeGroup0] at h
    split_ifs at h with h1 h2 <;> cases h
    exacts [h1 ▸ rfl, h2 ▸ rfl]
  · rw [decode_top1 w hT] at h; cases h; simp [rowMask, rowMatch, and_of_fieldT hT]
  · rw [decode_top2 w hT] at h; cases h; simp [rowMask, rowMatch, and_of_fieldT hT]
  · rw [decode_top3 w hT] at h; cases h; simp [rowMask, rowMatch, and_of_fieldT hT]
  · rw [decode_top4 w hT] at h; cases h; simp [rowMask, rowMatch, and_of_fieldT hT]
  · rw [decode_top5 w hT] at h
    split_ifs at h with hN
    cases h; simp [rowMask, rowMatch, and_of_fieldT_fieldN hT hN]
  · rw [decode_top6 w hT] at h; cases h; simp [rowMask, rowMatch, and_of_fieldT hT]
  · rw [decode_top7 w hT] at h; cases h; simp [rowMask, rowMatch, and_of_fieldT hT]
  · exact decodeGroup8_row hT ((decode_top8 w hT).symm.trans h)
  · rw [decode_top9 w hT] at h
    split_ifs at h with hN
    cases h; simp [rowMask, rowMatch, and_of_fieldT_fieldN hT hN]
  · rw [decode_topA w hT] at h; cases h; simp [rowMask, rowMatch, and_of_fieldT hT]
  · rw [decode_topB w hT] at h; cases h; simp [rowMask, rowMatch, and_of_fieldT hT]
  · rw [decode_topC w hT] at h; cases h; simp [rowMask, rowMatch, and_of_fieldT hT]
  · rw [decode_topD w hT] at h; cases h; simp [rowMask, rowMatch, and_of_fieldT hT]
  · exact decodeGroupE_row hT ((decode_topE w hT).symm.trans h)
  · exact decodeGroupF_row hT ((decode_topF w hT).symm.trans h)

/-- Decoding is matching a row of the opcode table and reading the operands (R74, R76). -/
theorem decode_eq_instr_iff {w : Word} {i : Instr} :
    decode w = .instr i ↔ w &&& rowMask i = rowMatch i ∧ i.readFields w = i := by
  constructor
  · intro h
    have hrow := row_of_decode h
    exact ⟨hrow, Decoded.instr.inj ((decode_of_row hrow).symm.trans h)⟩
  · rintro ⟨hrow, hfields⟩
    exact (decode_of_row hrow).trans (congrArg Decoded.instr hfields)

/-! ## The rows (R76, R81) -/

theorem row_mem_opcodeRows (i : Instr) : (rowMatch i, rowMask i) ∈ opcodeRows := by
  cases i <;> simp [opcodeRows, rowMatch, rowMask]

/-- The instructions with every operand 0, in the order of the table. -/
def zeroInstrs : List Instr :=
  [.cls, .ret, .jp 0, .call 0, .seVxNn 0 0, .sneVxNn 0 0, .seVxVy 0 0, .ldVxNn 0 0, .addVxNn 0 0, .ldVxVy 0 0,
   .orVxVy 0 0, .andVxVy 0 0, .xorVxVy 0 0, .addVxVy 0 0, .sub 0 0, .shr 0 0, .subn 0 0, .shl 0 0, .sneVxVy 0 0,
   .ldI 0, .jpV0 0 0, .rnd 0 0, .drw 0 0 0, .skp 0, .sknp 0, .ldVxDt 0, .ldVxK 0, .ldDtVx 0, .ldStVx 0, .addIVx 0,
   .ldFVx 0, .ldBVx 0, .ldMiVx 0, .ldVxMi 0]

theorem opcodeRows_eq_map : zeroInstrs.map (fun i => (rowMatch i, rowMask i)) = opcodeRows := rfl

/-- Every row is the row of an instruction. -/
theorem exists_row_of_mem_opcodeRows {p : Word × Word} (hp : p ∈ opcodeRows) :
    ∃ i, rowMatch i = p.1 ∧ rowMask i = p.2 := by
  rw [← opcodeRows_eq_map] at hp
  obtain ⟨i, -, rfl⟩ := List.mem_map.1 hp
  exact ⟨i, rfl, rfl⟩

/-- No two rows agree on the bits that both fix. -/
theorem opcodeRows_disagree : opcodeRows.Pairwise fun p q => p.1 &&& q.2 ≠ q.1 &&& p.2 := by
  decide

/-- A word that matches two rows makes them agree on the bits that both fix. -/
theorem rows_agree_of_match {w m1 v1 m2 v2 : Word} (h1 : w &&& m1 = v1) (h2 : w &&& m2 = v2) :
    v1 &&& m2 = v2 &&& m1 := by
  rw [← h1, ← h2, BitVec.and_assoc, BitVec.and_assoc, BitVec.and_comm m1]

/-! ## The illegal words (R77) -/

theorem decodeGroup0_eq_unrecognized_iff {w : Word} {why : Reject} :
    decodeGroup0 w = .unrecognized why ↔ why = .group0 ∧ w ≠ 0x00E0#16 ∧ w ≠ 0x00EE#16 := by
  simp only [decodeGroup0, ite_eq_iff, reduceCtorEq, and_false, false_or, Decoded.unrecognized.injEq]
  tauto

theorem decodeGroup8_eq_unrecognized_iff {w : Word} {why : Reject} :
    decodeGroup8 w = .unrecognized why ↔
      why = .group8 ∧ fieldN w ∈ [0x8#4, 0x9#4, 0xA#4, 0xB#4, 0xC#4, 0xD#4, 0xF#4] := by
  rcases nibble_cases (fieldN w) with hN | hN | hN | hN | hN | hN | hN | hN | hN | hN | hN | hN | hN | hN | hN | hN <;>
    simp [decodeGroup8, hN, eq_comm]

theorem decodeGroupE_eq_unrecognized_iff {w : Word} {why : Reject} :
    decodeGroupE w = .unrecognized why ↔ why = .groupE ∧ fieldNN w ∉ [0x9E#8, 0xA1#8] := by
  simp only [decodeGroupE, ite_eq_iff, reduceCtorEq, and_false, false_or, Decoded.unrecognized.injEq,
    List.mem_cons, List.not_mem_nil, or_false, not_or]
  tauto

theorem decodeGroupF_eq_unrecognized_iff {w : Word} {why : Reject} :
    decodeGroupF w = .unrecognized why ↔ why = .groupF ∧
      fieldNN w ∉ [0x07#8, 0x0A#8, 0x15#8, 0x18#8, 0x1E#8, 0x29#8, 0x33#8, 0x55#8, 0x65#8] := by
  simp only [decodeGroupF, ite_eq_iff, reduceCtorEq, and_false, false_or, Decoded.unrecognized.injEq,
    List.mem_cons, List.not_mem_nil, or_false, not_or]
  tauto

/-! ## The statements -/

/-- Settles O1: each word by its group. -/
theorem sampleWordsDecode : Obligations.SampleWordsDecode := by
  unfold Obligations.SampleWordsDecode
  decide

/-- Settles O2: an encoded word has its row's fixed bits, so it decodes to the row's instruction with the operands read
back from the word, which are the instruction's own. -/
theorem encodeThenDecodeIsIdentity : Obligations.EncodeThenDecodeIsIdentity := by
  intro i hi
  have hdecode : decode (encode i) = .instr i :=
    decode_eq_instr_iff.2 ⟨encode_and_rowMask i, Instr.readFields_encode hi⟩
  exact ⟨hdecode, (congrArg decode (wordOfBytes_bytesOfWord _)).trans hdecode⟩

/-- Settles O3: a decoded instruction has the fields of its word for operands, and a word is its fixed bits and its
fields. -/
theorem decodeThenEncodeIsIdentity : Obligations.DecodeThenEncodeIsIdentity := by
  intro w i h
  obtain ⟨hrow, hfields⟩ := decode_eq_instr_iff.1 h
  rw [← hfields]
  exact ⟨Instr.wf_readFields w i, encode_readFields hrow⟩

/-- Settles O4: the rows are those of the instructions, and two rows that disagree on a bit that both fix match no
common word. -/
theorem decoderFollowsTheOpcodeTable : Obligations.DecoderFollowsTheOpcodeTable := by
  refine ⟨fun w i => row_of_decode, row_mem_opcodeRows, fun w => ⟨?_, ?_⟩, ?_⟩
  · rintro ⟨i, h⟩
    exact ⟨_, row_mem_opcodeRows i, row_of_decode h⟩
  · rintro ⟨p, hp, hw⟩
    obtain ⟨i, hmatch, hmask⟩ := exists_row_of_mem_opcodeRows hp
    rw [← hmatch, ← hmask] at hw
    exact ⟨_, decode_of_row hw⟩
  · exact opcodeRows_disagree.imp fun hne w hw => hne (rows_agree_of_match hw.1 hw.2)

/-- Settles O5: the first nibble selects the group, and each group rejects what its rows leave over. -/
theorem illegalWordsAreThoseOfTheTable : Obligations.IllegalWordsAreThoseOfTheTable := by
  intro w why
  rcases nibble_cases (fieldT w) with hT | hT | hT | hT | hT | hT | hT | hT | hT | hT | hT | hT | hT | hT | hT | hT
  · simp [decode_top0 w hT, decodeGroup0_eq_unrecognized_iff, hT]
  · simp [decode_top1 w hT, hT]
  · simp [decode_top2 w hT, hT]
  · simp [decode_top3 w hT, hT]
  · simp [decode_top4 w hT, hT]
  · simp [decode_top5 w hT, hT, ite_eq_iff, and_comm, eq_comm (b := why)]
  · simp [decode_top6 w hT, hT]
  · simp [decode_top7 w hT, hT]
  · simp [decode_top8 w hT, decodeGroup8_eq_unrecognized_iff, hT]
  · simp [decode_top9 w hT, hT, ite_eq_iff, and_comm, eq_comm (b := why)]
  · simp [decode_topA w hT, hT]
  · simp [decode_topB w hT, hT]
  · simp [decode_topC w hT, hT]
  · simp [decode_topD w hT, hT]
  · simp [decode_topE w hT, decodeGroupE_eq_unrecognized_iff, hT]
  · simp [decode_topF w hT, decodeGroupF_eq_unrecognized_iff, hT]

end Sys2Proof
end

section
/-!
PROOFS. What an instruction may write, and the legal-value invariants (spec/10_state.md R42; the rules' pseudocode in
spec/40 to spec/44).
-/

namespace Sys2Proof.Machine

/-! ## Instructions that may stop (spec/60_exceptions.md R214) -/

theorem exec_ret_of_sp {s : State} (hpos : 1 ≤ s.sp.toNat) (hle : s.sp.toNat ≤ 15) :
    exec .ret s = .next ((s.setSp (s.sp - 1)).setPc (s.stackSlot s.sp + 2)) :=
  if_neg (by omega)

theorem exec_ret_fault {s : State} (h : s.sp.toNat = 0 ∨ 15 < s.sp.toNat) : exec .ret s = .fault .stackUnderflow :=
  if_pos h

theorem exec_call_of_sp {s : State} (nnn : Addr) (h : s.sp.toNat < 15) :
    exec (.call nnn) s = .next (((s.setSp (s.sp + 1)).setStackSlot (s.sp + 1) s.pc).setPc (nnn.setWidth 16)) :=
  if_neg (by omega)

theorem exec_call_fault {s : State} (nnn : Addr) (h : 15 ≤ s.sp.toNat) :
    exec (.call nnn) s = .fault .stackOverflow :=
  if_pos h

theorem exec_skp_of_key {s : State} {x : Reg} (h : (s.reg x).toNat ≤ 15) :
    exec (.skp x) s = .next (s.skipIf (s.keyDown (s.reg x).toNat)) :=
  if_neg (by omega)

theorem exec_skp_fault {s : State} {x : Reg} (h : 15 < (s.reg x).toNat) : exec (.skp x) s = .fault .keyIndex :=
  if_pos h

theorem exec_sknp_of_key {s : State} {x : Reg} (h : (s.reg x).toNat ≤ 15) :
    exec (.sknp x) s = .next (s.skipIf (!s.keyDown (s.reg x).toNat)) :=
  if_neg (by omega)

theorem exec_sknp_fault {s : State} {x : Reg} (h : 15 < (s.reg x).toNat) : exec (.sknp x) s = .fault .keyIndex :=
  if_pos h

/-! ## From the state an instruction answers to a property of every state it answers -/

theorem of_exec_next {p : State → Prop} {i : Instr} {s t u : State} (h : exec i s = .next t)
    (hi : exec i s = .next u) (hu : p u) : p t := by
  cases hi.symm.trans h
  exact hu

/-- An instruction that stops on a condition answers a next state only where the condition fails. -/
theorem of_exec_next_or_fault {p : State → Prop} {i : Instr} {s t : State} {stop : Prop} {f : Fault}
    (h : exec i s = .next t) (hstop : stop → exec i s = .fault f) (hgo : ¬ stop → ∃ u, exec i s = .next u ∧ p u) :
    p t := by
  by_cases hc : stop
  · cases (hstop hc).symm.trans h
  · obtain ⟨u, hi, hu⟩ := hgo hc
    exact of_exec_next h hi hu

/-! ## The frame of every instruction -/

/-- An update and the normal advance. -/
theorem UnchangedBut.advance {es : List Element} {s t : State} (h : UnchangedBut es s t) :
    UnchangedBut (es ++ [.pc]) s t.advance :=
  h.append t.advance_unchanged

theorem exec_unchanged {i : Instr} {s t : State} (h : exec i s = .next t) : UnchangedBut (writtenBy i) s t := by
  cases i with
  | cls => exact of_exec_next h rfl ((s.setDisplay_unchanged _).append (State.setDrawDisplay_unchanged _ _)).advance
  | ret =>
    exact of_exec_next_or_fault h exec_ret_fault fun hsp =>
      ⟨_, exec_ret_of_sp (by omega) (by omega), (s.setSp_unchanged _).append (State.setPc_unchanged _ _)⟩
  | call nnn =>
    exact of_exec_next_or_fault h (exec_call_fault nnn) fun hsp =>
      ⟨_, exec_call_of_sp nnn (by omega),
        ((s.setSp_unchanged _).append (State.setStackSlot_unchanged _ _ _)).append (State.setPc_unchanged _ _)⟩
  | skp x =>
    exact of_exec_next_or_fault h exec_skp_fault fun hx =>
      ⟨_, exec_skp_of_key (by omega), s.skipIf_unchanged _⟩
  | sknp x =>
    exact of_exec_next_or_fault h exec_sknp_fault fun hx =>
      ⟨_, exec_sknp_of_key (by omega), s.skipIf_unchanged _⟩
  | jp | jpV0 => exact of_exec_next h rfl (s.setPc_unchanged _)
  | seVxNn | sneVxNn | seVxVy | sneVxVy => exact of_exec_next h rfl (s.skipIf_unchanged _)
  | ldVxNn | addVxNn | ldVxVy | ldVxDt => exact of_exec_next h rfl (s.setReg_unchanged _ _).advance
  | orVxVy | andVxVy | xorVxVy =>
    exact of_exec_next h rfl ((s.setReg_unchanged _ _).trans (State.zeroVfQuirk_unchanged _)).advance
  | addVxVy => exact of_exec_next h rfl (s.writeResultThenFlag_unchanged _ _ _).advance
  | sub | shr | subn | shl => exact of_exec_next h rfl (s.writeByVfOrder_unchanged _ _ _).advance
  | ldI | addIVx | ldFVx => exact of_exec_next h rfl (s.setI_unchanged _).advance
  | rnd =>
    exact of_exec_next h rfl
      ((s.countDraw_unchanged.append (State.setReg_unchanged _ _ _)).advance.mono (by simp [writtenBy]))
  | drw =>
    exact of_exec_next h rfl (((s.setDisplay_unchanged _).append (State.setReg_unchanged _ _ _)).append
      (State.setDrawDisplay_unchanged _ _)).advance
  | ldVxK x =>
    cases hk : s.releasedKey with
    | some k =>
      exact of_exec_next h (exec_ldVxK_of_released x hk)
        ((s.setReg_unchanged _ _).append (State.setFxoa_unchanged _ _)).advance
    | none =>
      exact of_exec_next h (exec_ldVxK_of_not_released x hk) ((s.setFxoa_unchanged _).mono (by simp [writtenBy]))
  | ldDtVx => exact of_exec_next h rfl (s.setDelay_unchanged _).advance
  | ldStVx => exact of_exec_next h rfl (s.setSound_unchanged _).advance
  | ldBVx x => exact of_exec_next h (exec_ldBVx x s) (s.storeDigits_unchanged _).advance
  | ldMiVx =>
    exact of_exec_next h rfl ((State.storeRegs_unchanged _ s).append (State.bumpIndex_unchanged _ _)).advance
  | ldVxMi =>
    exact of_exec_next h rfl ((State.loadRegs_unchanged _ s).append (State.bumpIndex_unchanged _ _)).advance

/-- No instruction writes host control or a parameter (spec/60_exceptions.md R219, R226). -/
theorem hostControl_notMem_writtenBy (i : Instr) :
    Element.quirks ∉ writtenBy i ∧ .keypad ∉ writtenBy i ∧ .params ∉ writtenBy i ∧ .cpuState ∉ writtenBy i := by
  cases i <;> simp [writtenBy]

/-! ## Updates that keep a state legal -/

theorem State.Legal.setReg {s : State} (hs : s.Legal) (x : Reg) (b : Byte) : (s.setReg x b).Legal := { hs with }

theorem mask12_le (w : Word) : (w &&& 0x0FFF#16).toNat ≤ 0xFFF := by
  have h := Nat.mod_lt w.toNat (show 0 < Config.ramSize by decide)
  rw [mask12_toNat]
  exact Nat.le_of_lt_succ h

theorem State.Legal.setPc {s : State} (hs : s.Legal) (w : Word) : (s.setPc w).Legal :=
  { hs with pcInRange := mask12_le w }

theorem State.Legal.advance {s : State} (hs : s.Legal) : s.advance.Legal := hs.setPc _

theorem State.Legal.skipIf {s : State} (hs : s.Legal) (c : Bool) : (s.skipIf c).Legal := by
  cases c
  exacts [hs.setPc _, hs.setPc _]

theorem State.Legal.setI {s : State} (hs : s.Legal) (w : Word) : (s.setI w).Legal :=
  { hs with indexInRange := mask12_le w }

theorem State.Legal.setSp {s : State} (hs : s.Legal) {w : Word} (hw : w.toNat ≤ 15) : (s.setSp w).Legal :=
  { hs with spInRange := hw }

theorem State.Legal.setStackSlot {s : State} (hs : s.Legal) (k : Word) {w : Word} (hw : w.toNat ≤ 0xFFF) :
    (s.setStackSlot k w).Legal :=
  { hs with
    slotsInRange := fun j => by
      simp only [State.setStackSlot_stack, Fin.getElem_fin, Vector.getElem_set]
      split
      exacts [hw, hs.slotsInRange j] }

theorem State.Legal.memWrite {s : State} (hs : s.Legal) (a : Nat) (b : Byte) : (s.memWrite a b).Legal :=
  { hs with ramCanonical := State.memWrite_memWf hs.ramCanonical a b }

theorem State.Legal.setDisplay {s : State} (hs : s.Legal) (d : Display) : (s.setDisplay d).Legal := { hs with }

theorem State.Legal.setDrawDisplay {s : State} (hs : s.Legal) (b : Byte) : (s.setDrawDisplay b).Legal := { hs with }

theorem State.Legal.setFxoa {s : State} (hs : s.Legal) (w : Word) : (s.setFxoa w).Legal := { hs with }

theorem State.Legal.setDelay {s : State} (hs : s.Legal) (b : Byte) : (s.setDelay b).Legal := { hs with }

theorem State.Legal.setSound {s : State} (hs : s.Legal) (b : Byte) : (s.setSound b).Legal := { hs with }

theorem State.Legal.countDraw {s : State} (hs : s.Legal) : s.countDraw.Legal := { hs with }

theorem State.Legal.setOpcode {s : State} (hs : s.Legal) (w : Word) : (s.setOpcode w).Legal := { hs with }

theorem State.Legal.setCpu {s : State} (hs : s.Legal) (c : CpuState) : (s.setCpu c).Legal := { hs with }

theorem State.Legal.settleCycles {s : State} (hs : s.Legal) : s.settleCycles.Legal := { hs with }

theorem State.Legal.zeroVfQuirk {s : State} (hs : s.Legal) : s.zeroVfQuirk.Legal := by
  unfold State.zeroVfQuirk
  split
  exacts [hs.setReg _ _, hs]

theorem State.Legal.writeByVfOrder {s : State} (hs : s.Legal) (x : Reg) (result flag : Byte) :
    (s.writeByVfOrder x result flag).Legal := by
  unfold State.writeByVfOrder
  split
  exacts [(hs.setReg _ _).setReg _ _, (hs.setReg _ _).setReg _ _]

theorem State.Legal.bumpIndex {s : State} (hs : s.Legal) (x : Reg) : (s.bumpIndex x).Legal := by
  unfold State.bumpIndex
  split
  exacts [hs.setI _, hs]

/-- A loop whose every round keeps a state legal. -/
theorem State.Legal.foldl {α : Type} {f : State → α → State} (hf : ∀ s a, s.Legal → (f s a).Legal) {s : State}
    (hs : s.Legal) (l : List α) : (l.foldl f s).Legal := by
  induction l generalizing s with
  | nil => exact hs
  | cons a l ih => exact ih (hf s a hs)

/-- An instruction that answers a next state keeps the invariants: `I` and `pc` are masked (D5), and the bounds that
00EE and 2NNN check keep `sp` (D6). -/
theorem exec_legal {i : Instr} {s t : State} (hs : s.Legal) (h : exec i s = .next t) : t.Legal := by
  cases i with
  | cls => exact of_exec_next h rfl ((hs.setDisplay _).setDrawDisplay _).advance
  | ret =>
    exact of_exec_next_or_fault h exec_ret_fault fun hsp =>
      ⟨_, exec_ret_of_sp (by omega) (by omega), (hs.setSp (by bv_omega)).setPc _⟩
  | call nnn =>
    exact of_exec_next_or_fault h (exec_call_fault nnn) fun hsp =>
      ⟨_, exec_call_of_sp nnn (by omega), ((hs.setSp (by bv_omega)).setStackSlot _ hs.pcInRange).setPc _⟩
  | skp x =>
    exact of_exec_next_or_fault h exec_skp_fault fun hx => ⟨_, exec_skp_of_key (by omega), hs.skipIf _⟩
  | sknp x =>
    exact of_exec_next_or_fault h exec_sknp_fault fun hx => ⟨_, exec_sknp_of_key (by omega), hs.skipIf _⟩
  | jp | jpV0 => exact of_exec_next h rfl (hs.setPc _)
  | seVxNn | sneVxNn | seVxVy | sneVxVy => exact of_exec_next h rfl (hs.skipIf _)
  | ldVxNn | addVxNn | ldVxVy | ldVxDt => exact of_exec_next h rfl (hs.setReg _ _).advance
  | orVxVy | andVxVy | xorVxVy => exact of_exec_next h rfl (hs.setReg _ _).zeroVfQuirk.advance
  | addVxVy => exact of_exec_next h rfl ((hs.setReg _ _).setReg _ _).advance
  | sub | shr | subn | shl => exact of_exec_next h rfl (hs.writeByVfOrder _ _ _).advance
  | ldI | addIVx | ldFVx => exact of_exec_next h rfl (hs.setI _).advance
  | rnd => exact of_exec_next h rfl (hs.countDraw.setReg _ _).advance
  | drw => exact of_exec_next h rfl (((hs.setDisplay _).setReg _ _).setDrawDisplay _).advance
  | ldVxK x =>
    cases hk : s.releasedKey with
    | some k => exact of_exec_next h (exec_ldVxK_of_released x hk) ((hs.setReg _ _).setFxoa _).advance
    | none => exact of_exec_next h (exec_ldVxK_of_not_released x hk) (hs.setFxoa _)
  | ldDtVx => exact of_exec_next h rfl (hs.setDelay _).advance
  | ldStVx => exact of_exec_next h rfl (hs.setSound _).advance
  | ldBVx => exact of_exec_next h rfl (((hs.memWrite _ _).memWrite _ _).memWrite _ _).advance
  | ldMiVx =>
    exact of_exec_next h rfl ((State.Legal.foldl (fun _ _ hu => hu.memWrite _ _) hs _).bumpIndex _).advance
  | ldVxMi =>
    exact of_exec_next h rfl ((State.Legal.foldl (fun _ _ hu => hu.setReg _ _) hs _).bumpIndex _).advance

/-- `Reset` clears `pc`, `sp`, `I` and the stack to legal values, whatever they were, and leaves `ram` (R241). -/
theorem State.doReset_legal {s : State} (hs : s.memWf) : s.doReset.Legal where
  ramCanonical := hs
  pcInRange := show (0x200#16).toNat ≤ 0xFFF by decide
  spInRange := Nat.zero_le _
  indexInRange := Nat.zero_le _
  slotsInRange := by simp [State.doReset]

/-! ## The statements -/

/-- Settles O15: the updates of each instruction, one by one. -/
theorem instructionsWriteOnlyTheirElements : Obligations.InstructionsWriteOnlyTheirElements :=
  fun _ _ _ => exec_unchanged

/-- Settles O17: only the rule of CXNN names the count of draws, and it adds one. -/
theorem onlyRndDrawsAndOnce : Obligations.OnlyRndDrawsAndOnce := by
  intro i s t h
  cases i with
  | rnd => exact of_exec_next (p := fun t => t.draws = s.draws + 1) h rfl rfl
  | _ => exact exec_unchanged h .draws (by simp [writtenBy])

/-- Settles O16: a Step is idle, or raises the error, or runs an instruction, which writes no host control. -/
theorem stepNeverWritesHostControl : Obligations.StepNeverWritesHostControl := by
  intro s t h
  rcases step_next_cases h with ⟨-, rfl⟩ | ⟨hc, -, ⟨why, hd, -, rfl⟩ | ⟨i, u, -, hu, rfl⟩⟩
  · exact ⟨rfl, rfl, rfl, .inl rfl⟩
  · exact ⟨rfl, rfl, rfl, .inr ⟨hc, rfl, why, hd⟩⟩
  · obtain ⟨hquirks, hkeypad, hparams, hcpu⟩ := hostControl_notMem_writtenBy i
    have hframe := exec_unchanged hu
    exact ⟨hframe .quirks hquirks, hframe .keypad hkeypad, hframe .params hparams, .inl (hframe .cpuState hcpu)⟩

/-- Settles O12: nothing is listed in `ram`, and the entry address is legal. -/
theorem resetStateIsLegal : Obligations.ResetStateIsLegal where
  ramCanonical := State.reset_memWf
  pcInRange := by decide
  spInRange := by decide
  indexInRange := by decide
  slotsInRange := by decide

/-- Settles O13: the fetch, the error outcome and the free value of `cycles` touch none of the bounded elements, and
every instruction keeps the invariants. -/
theorem stepKeepsLegalStates : Obligations.StepKeepsLegalStates := by
  intro s t hs h
  rcases step_next_cases h with ⟨-, rfl⟩ | ⟨-, -, ⟨why, -, -, rfl⟩ | ⟨i, u, -, hu, rfl⟩⟩
  · exact hs
  · exact ((hs.setOpcode _).setCpu _).settleCycles
  · exact (exec_legal (hs.setOpcode _) hu).settleCycles

/-- Settles O14: Tick and ZeroDisplay touch no bounded element, the resets set them to legal values, and the zeroing
commands keep the canonical form. -/
theorem commandsKeepLegalStates : Obligations.CommandsKeepLegalStates := fun s hs =>
  ⟨(hs.setDelay _).setSound _, { State.doReset_legal hs.ramCanonical with ramCanonical := s.doInit_memWf },
    State.doReset_legal hs.ramCanonical, { hs with ramCanonical := s.zeroRam_memWf },
    { hs with ramCanonical := State.zeroProgram_memWf hs.ramCanonical }, hs.setDisplay _⟩

end Sys2Proof.Machine
end

section
/-!
PROOFS. The Step command: what it fetches, and how it ends (spec/60_exceptions.md R210 to R215, R229 to R232).
-/

namespace Sys2Proof.Machine

/-! ## The outcome of a Step, by the checks in the order of R215 -/

theorem step_of_not_executing {s : State} (hc : s.cpuState ≠ .executing) : step s = .next s := if_pos hc

theorem step_of_pc_out_of_range {s : State} (hc : s.cpuState = .executing) (hp : 0xFFF < s.pc.toNat) :
    step s = .fault .pcRange :=
  (if_neg (not_not.2 hc)).trans (if_pos hp)

theorem step_of_unrecognized {s : State} {why : Reject} (hc : s.cpuState = .executing) (hp : s.pc.toNat ≤ 0xFFF)
    (hd : decode s.fetch16 = .unrecognized why) :
    step s = if s.refusesWord s.fetch16 then .refused (.unlistedHandler s.fetch16)
      else .next s.fetched.raiseUnrecognizedOpcode.settleCycles := by
  rw [step_eq, engineStep, if_neg (not_not.2 hc), if_neg (by omega), State.fetchDecode, hd]
  rfl

theorem State.refusesWord_iff (s : State) (w : Word) :
    s.refusesWord w = true ↔ fieldT w = 0#4 ∧ s.params.sysPolicy = .refuse := by
  simp [State.refusesWord]

/-! ## The words of group 0 (spec/30_encoding.md R78) -/

theorem decode_of_unlisted_group0 {w : Word} (hT : fieldT w = 0#4) (hcls : w ≠ 0x00E0#16) (hret : w ≠ 0x00EE#16) :
    decode w = .unrecognized .group0 :=
  (decode_top0 w hT).trans (decodeGroup0_eq_unrecognized_iff.2 ⟨rfl, hcls, hret⟩)

theorem ne_listed_of_decode_unrecognized {w : Word} {why : Reject} (h : decode w = .unrecognized why) :
    w ≠ 0x00E0#16 ∧ w ≠ 0x00EE#16 := by
  refine ⟨?_, ?_⟩
  · rintro rfl
    cases (show decode 0x00E0#16 = .instr .cls by decide).symm.trans h
  · rintro rfl
    cases (show decode 0x00EE#16 = .instr .ret by decide).symm.trans h

/-! ## The fetch (spec/20_memory.md R51) -/

/-- The high byte counts 256 times. -/
theorem wordOfBytes_toNat (hi lo : Byte) : (wordOfBytes hi lo).toNat = 256 * hi.toNat + lo.toNat := by
  have hhi := hi.isLt
  have hlo := lo.isLt
  have hshift : (hi.setWidth 16 <<< 8).toNat = hi.toNat <<< 8 := by
    simp only [BitVec.toNat_shiftLeft, BitVec.toNat_setWidth, Nat.shiftLeft_eq]
    omega
  have hlow : (lo.setWidth 16).toNat = lo.toNat := by
    rw [BitVec.toNat_setWidth]
    omega
  rw [wordOfBytes, BitVec.toNat_or, hshift, hlow, ← Nat.shiftLeft_add_eq_or_of_lt hlo, Nat.shiftLeft_eq]
  omega

theorem State.fetch16_eq (s : State) : s.fetch16 = wordOfBytes (s.memRead s.pc.toNat) (s.memRead (s.pc.toNat + 1)) :=
  rfl

/-- No instruction writes `opcode`: the word that the fetch stored stays there (spec/10_state.md R36). -/
theorem opcode_notMem_writtenBy (i : Instr) : Element.opcode ∉ writtenBy i := by
  cases i <;> simp [writtenBy]

/-! ## Undefined outcomes of an instruction (R214) -/

/-- The condition under which the rule of instruction `i` says that its outcome is undefined, with the name of the
fault (`exec_eq_fault_iff`). -/
def Undefined (s : State) (i : Instr) (f : Fault) : Prop :=
  (f = .stackOverflow ∧ (∃ nnn, i = .call nnn) ∧ 15 ≤ s.sp.toNat) ∨
  (f = .stackUnderflow ∧ i = .ret ∧ (s.sp.toNat = 0 ∨ 15 < s.sp.toNat)) ∨
  (f = .keyIndex ∧ ∃ x, (i = .skp x ∨ i = .sknp x) ∧ 15 < (s.reg x).toNat)

theorem exec_of_undefined {s : State} {i : Instr} {f : Fault} (h : Undefined s i f) : exec i s = .fault f := by
  rcases h with ⟨rfl, ⟨nnn, rfl⟩, hsp⟩ | ⟨rfl, rfl, hsp⟩ | ⟨rfl, x, rfl | rfl, hx⟩
  exacts [exec_call_fault nnn hsp, exec_ret_fault hsp, exec_skp_fault hx, exec_sknp_fault hx]

/-- An instruction completes, or its outcome is undefined. -/
theorem exec_completes_or_undefined (i : Instr) (s : State) : (∃ t, exec i s = .next t) ∨ ∃ f, Undefined s i f := by
  cases i with
  | call nnn =>
    by_cases hsp : 15 ≤ s.sp.toNat
    · exact .inr ⟨_, .inl ⟨rfl, ⟨nnn, rfl⟩, hsp⟩⟩
    · exact .inl ⟨_, exec_call_of_sp nnn (by omega)⟩
  | ret =>
    by_cases hsp : s.sp.toNat = 0 ∨ 15 < s.sp.toNat
    · exact .inr ⟨_, .inr (.inl ⟨rfl, rfl, hsp⟩)⟩
    · exact .inl ⟨_, exec_ret_of_sp (by omega) (by omega)⟩
  | skp x =>
    by_cases hx : 15 < (s.reg x).toNat
    · exact .inr ⟨_, .inr (.inr ⟨rfl, x, .inl rfl, hx⟩)⟩
    · exact .inl ⟨_, exec_skp_of_key (by omega)⟩
  | sknp x =>
    by_cases hx : 15 < (s.reg x).toNat
    · exact .inr ⟨_, .inr (.inr ⟨rfl, x, .inr rfl, hx⟩)⟩
    · exact .inl ⟨_, exec_sknp_of_key (by omega)⟩
  | ldVxK x =>
    cases hk : s.releasedKey with
    | some k => exact .inl ⟨_, exec_ldVxK_of_released x hk⟩
    | none => exact .inl ⟨_, exec_ldVxK_of_not_released x hk⟩
  | _ => exact .inl ⟨_, rfl⟩

theorem exec_eq_fault_iff {i : Instr} {s : State} {f : Fault} : exec i s = .fault f ↔ Undefined s i f := by
  refine ⟨fun h => ?_, exec_of_undefined⟩
  rcases exec_completes_or_undefined i s with ⟨t, ht⟩ | ⟨g, hg⟩
  · cases ht.symm.trans h
  · cases (exec_of_undefined hg).symm.trans h
    exact hg

/-- No arm of the model lacks a meaning. -/
theorem exec_ne_refused (i : Instr) (s : State) (r : Refusal) : exec i s ≠ .refused r := by
  intro h
  rcases exec_completes_or_undefined i s with ⟨t, ht⟩ | ⟨g, hg⟩
  · cases ht.symm.trans h
  · cases (exec_of_undefined hg).symm.trans h

/-! ## A Step on an instruction -/

theorem step_eq_fault_iff_of_decode {s : State} {i : Instr} {f : Fault} (hc : s.cpuState = .executing)
    (hp : s.pc.toNat ≤ 0xFFF) (hd : decode s.fetch16 = .instr i) :
    step s = .fault f ↔ Undefined s.fetched i f := by
  rw [step_of_decode hc hp hd, ← exec_eq_fault_iff]
  cases exec i s.fetched <;> simp

theorem step_ne_refused_of_decode {s : State} {i : Instr} (hc : s.cpuState = .executing)
    (hp : s.pc.toNat ≤ 0xFFF) (hd : decode s.fetch16 = .instr i) (r : Refusal) : step s ≠ .refused r := by
  rw [step_of_decode hc hp hd]
  have hno := exec_ne_refused i s.fetched
  cases hi : exec i s.fetched with
  | refused q => exact absurd hi (hno q)
  | next | fault => simp

/-! ## The Step command in a run (R213, R232) -/

theorem Session.issue_step {z : Session} (hm : z.mark = none) : z.issue .step = z.step := by
  rw [Session.issue, hm]
  rfl

theorem Session.step_of_next {z : Session} {t : State} (h : Machine.step z.machine = .next t) :
    z.step = { z with machine := t } := by
  rw [Session.step, h]

theorem Session.step_of_fault {z : Session} {f : Fault} (h : Machine.step z.machine = .fault f) :
    z.step = { z with machine := z.machine.stopped, mark := some (.fault f) } := by
  rw [Session.step, h]

theorem Session.step_of_refused {z : Session} {r : Refusal} (h : Machine.step z.machine = .refused r) :
    z.step = { z with machine := z.machine.stopped, mark := some (.refused r) } := by
  rw [Session.step, h]

theorem Session.issue_of_marked {z : Session} (hm : z.mark ≠ none) (c : Command) : z.issue c = z :=
  if_pos (Option.isSome_iff_ne_none.2 hm)

theorem State.stopped_opcode (s : State) :
    s.stopped.opcode = if s.pc.toNat ≤ 0xFFF then s.fetch16 else s.opcode := by
  by_cases hp : s.pc.toNat ≤ 0xFFF
  · rw [State.stopped, if_neg (by omega), if_pos hp]
    rfl
  · rw [State.stopped, if_pos (by omega), if_neg hp]

theorem State.stopped_unchanged (s : State) : UnchangedBut [.opcode] s s.stopped := by
  unfold State.stopped
  split
  exacts [UnchangedBut.refl _ _, s.setOpcode_unchanged _]

/-! ## A jump to itself (R230) -/

/-- The word of a jump to a legal `pc` decodes to that jump. -/
theorem decode_self_jump {pc : Word} (hp : pc.toNat ≤ 0xFFF) :
    decode (0x1000#16 ||| pc) = .instr (.jp (pc.setWidth 12)) := by
  have hpc : (pc.setWidth 12).setWidth 16 = pc := by
    apply BitVec.eq_of_toNat_eq
    simp only [BitVec.toNat_setWidth]
    omega
  have hword : encode (.jp (pc.setWidth 12)) = 0x1000#16 ||| pc := by rw [encode, encodeA, hpc]
  rw [← hword]
  exact (encodeThenDecodeIsIdentity (.jp (pc.setWidth 12)) rfl).1

/-! ## The statements -/

/-- Settles O6: the decoded word is the one that the Step fetches. -/
theorem stepRunsTheDecodedInstruction : Obligations.StepRunsTheDecodedInstruction := by
  rintro s i w hc hp rfl hd
  exact step_of_decode hc hp hd

/-- Settles O7: the first check of a Step. -/
theorem stepIsIdleUnlessExecuting : Obligations.StepIsIdleUnlessExecuting := fun _ => step_of_not_executing

/-- Settles O8: the fetch is the first write of a Step, and nothing after it writes `opcode`. -/
theorem fetchIsBigEndianAndWraps : Obligations.FetchIsBigEndianAndWraps := by
  intro s hc hp
  refine ⟨?_, fun t h => ?_, rfl, s.setOpcode_unchanged _⟩
  · rw [s.fetch16_eq, wordOfBytes_toNat, ← s.memRead_mod (s.pc.toNat + 1)]
  · rcases step_next_cases h with ⟨hidle, -⟩ | ⟨-, -, ⟨why, -, -, rfl⟩ | ⟨i, u, -, hu, rfl⟩⟩
    · exact absurd hc hidle
    · rfl
    · exact exec_unchanged hu .opcode (opcode_notMem_writtenBy i)

/-- Settles O9: the error outcome writes `cpu_state`, after which a Step is idle. -/
theorem unrecognizedWordIsTerminal : Obligations.UnrecognizedWordIsTerminal := by
  intro s why hc hp hd hpolicy
  have hrefuse : ¬ s.refusesWord s.fetch16 = true := by
    rw [State.refusesWord_iff]
    rintro ⟨hT, hr⟩
    rcases hpolicy with h | h
    · cases hr.symm.trans h
    · exact h hT
  refine ⟨_, (step_of_unrecognized hc hp hd).trans (if_neg hrefuse), rfl, rfl, ?_, step_of_not_executing nofun⟩
  exact (((s.setOpcode_unchanged _).append (State.raiseUnrecognizedOpcode_unchanged _)).append
    (State.settleCycles_unchanged _)).mono (by simp)

/-- Settles O10: each check of a Step in its order, and then the rule of the decoded instruction. -/
theorem undefinedOutcomesAreThoseOfTheTable : Obligations.UndefinedOutcomesAreThoseOfTheTable := by
  intro s f
  by_cases hc : s.cpuState = .executing
  case neg => simp [step_of_not_executing hc, hc]
  by_cases hp : s.pc.toNat ≤ 0xFFF
  case neg => simp [step_of_pc_out_of_range hc (not_le.1 hp), hc, hp, not_le.1 hp, eq_comm]
  cases hd : decode s.fetch16 with
  | unrecognized why =>
    rw [step_of_unrecognized hc hp hd]
    split <;> simp [hp]
  | instr i =>
    rw [step_eq_fault_iff_of_decode hc hp hd]
    simp [Undefined, State.fetched, hc, hp]

/-- Settles O11: only a word that is no instruction can be refused, and of those only one of group 0. -/
theorem refusalsAreThoseOfSysPolicy : Obligations.RefusalsAreThoseOfSysPolicy := by
  intro s r
  by_cases hc : s.cpuState = .executing
  case neg => simp [step_of_not_executing hc, hc]
  by_cases hp : s.pc.toNat ≤ 0xFFF
  case neg => simp [step_of_pc_out_of_range hc (not_le.1 hp), hp]
  cases hd : decode s.fetch16 with
  | unrecognized why =>
    have hlisted := ne_listed_of_decode_unrecognized hd
    rw [step_of_unrecognized hc hp hd]
    split
    · next hr =>
      obtain ⟨hT, hpolicy⟩ := (s.refusesWord_iff _).1 hr
      simp [hc, hp, hT, hpolicy, hlisted, eq_comm]
    · next hr =>
      rw [State.refusesWord_iff] at hr
      simp only [reduceCtorEq, false_iff]
      rintro ⟨-, -, hpolicy, hT, -⟩
      exact hr ⟨hT, hpolicy⟩
  | instr i =>
    refine iff_of_false (step_ne_refused_of_decode hc hp hd r) ?_
    rintro ⟨-, -, -, hT, hcls, hret, -⟩
    cases (decode_of_unlisted_group0 hT hcls hret).symm.trans hd

/-- Settles O22: the fetched word is the jump to `pc`, which leaves the state that the fetch left; the same word is
then at the same `pc`. -/
theorem selfJumpRepeatsForever : Obligations.SelfJumpRepeatsForever := by
  intro s hc hp hword
  have hd : decode s.fetch16 = .instr (.jp (s.pc.setWidth 12)) := hword ▸ decode_self_jump hp
  obtain ⟨u, hu, -, -, hself⟩ := jpSetsPc.2 (s.pc.setWidth 12) s.fetched
  obtain rfl : u = s.fetched := hself (by
    rw [BitVec.toNat_setWidth, Nat.mod_eq_of_lt (by omega)]
    rfl)
  have hstep : step s = .next s.fetched.settleCycles := by rw [step_of_decode hc hp hd, hu]
  refine ⟨_, hstep, rfl, (s.setOpcode_unchanged _).append (State.settleCycles_unchanged _), ?_⟩
  rintro z hm rfl
  rw [Session.issue_step hm, Session.step_of_next hstep]
  exact ⟨⟨hm, .inr ⟨hp, hword⟩⟩, ⟨hm, .inr ⟨hp, hword⟩⟩⟩

/-- Settles O58: a marked run takes no command, and the Step that marks it leaves what the fetch left. -/
theorem faultMarkIsAbsorbing : Obligations.FaultMarkIsAbsorbing := by
  refine ⟨fun z f hm h => ?_, fun z r hm h => ?_, fun cs z hm => ?_⟩
  · rw [Session.issue_step hm, Session.step_of_fault h]
    exact ⟨rfl, rfl, z.machine.stopped_opcode, z.machine.stopped_unchanged⟩
  · obtain ⟨-, hp, -⟩ := (refusalsAreThoseOfSysPolicy z.machine r).1 h
    rw [Session.issue_step hm, Session.step_of_refused h]
    exact ⟨rfl, rfl, z.machine.stopped_opcode.trans (if_pos hp), z.machine.stopped_unchanged⟩
  · induction cs with
    | nil => rfl
    | cons c cs ih => rw [Session.issueAll, List.foldl_cons, Session.issue_of_marked hm, ← Session.issueAll, ih]

end Sys2Proof.Machine
end

section
/-!
PROOFS. Memory, the call stack and the register blocks (spec/20_memory.md; spec/40_control_flow.md R101, R103;
spec/42_index_memory.md R154, R155).
-/

namespace Sys2Proof.Machine

/-! ## Reads after a write (spec/20_memory.md R54, R60) -/

theorem State.memRead_eq_of_mod {a k : Nat} (s : State) (h : k % Config.ramSize = a % Config.ramSize) :
    s.memRead k = s.memRead a := by
  rw [← s.memRead_mod k, h, s.memRead_mod]

theorem State.memRead_memWrite {s : State} (hs : s.memWf) (a k : Nat) (b : Byte) :
    (s.memWrite a b).memRead k = if k % 4096 = a % 4096 then b else s.memRead k := by
  split
  · next h => rw [State.memRead_eq_of_mod _ h, State.memRead_memWrite_same hs]
  · next h => exact s.memRead_memWrite_other b h

/-! ## A placed word (spec/20_memory.md R51, R63) -/

/-- The state made ready for the fetch: executing, and `pc` legal (`placeWord_eq`). -/
def State.ready (s : State) : State := (s.setPc s.pc).setCpu .executing

theorem placeWord_eq (s : State) (w : Word) :
    placeWord s w = (s.ready.memWrite s.ready.pc.toNat (bytesOfWord w).1).memWrite (s.ready.pc.toNat + 1)
      (bytesOfWord w).2 := rfl

theorem State.withFetchWord_toNat (s : State) (w : Word) : s.withFetchWord 16 w.toNat = placeWord s w := by
  rw [State.withFetchWord, Nat.mod_eq_of_lt w.isLt, BitVec.ofNat_toNat, BitVec.setWidth_eq]

/-- The two bytes have different addresses, also where the second wraps to 0. -/
theorem placeWord_fetch16 {s : State} (hs : s.memWf) (w : Word) : (placeWord s w).fetch16 = w := by
  have hready : s.ready.memWf := hs
  have hhi := State.memWrite_memWf hready s.ready.pc.toNat (bytesOfWord w).1
  have hne : s.ready.pc.toNat % 4096 ≠ (s.ready.pc.toNat + 1) % 4096 := by omega
  have hpc : (placeWord s w).pc = s.ready.pc := rfl
  rw [State.fetch16_eq, hpc, placeWord_eq, State.memRead_memWrite hhi, State.memRead_memWrite hhi, if_neg hne,
    if_pos rfl, State.memRead_memWrite_same hready, wordOfBytes_bytesOfWord]

/-! ## Frames -/

/-- An element listed as written, but with its old value, need not be listed. -/
theorem UnchangedBut.of_same {e : Element} {es : List Element} {s t : State} (h : UnchangedBut (e :: es) s t)
    (he : e.same s t) : UnchangedBut es s t := by
  intro d hd
  by_cases hde : d = e
  · exact hde ▸ he
  · exact h d (by simp [hde, hd])

/-- Updates that spare `pc` and then the normal advance end at `pc + 2`. -/
theorem advanced_of_unchanged {es : List Element} {s u : State} (hu : UnchangedBut es s u) (hpc : Element.pc ∉ es) :
    Advanced s u.advance := by
  have hsame : u.pc = s.pc := hu .pc hpc
  rw [Advanced, State.advance_pc_toNat, hsame]

theorem State.quirk_congr {s t : State} (h : t.quirks = s.quirks) (q : Quirk) : t.quirk q = s.quirk q := by
  rw [State.quirk, State.quirk, h]

theorem State.bumpIndex_ram (s : State) (x : Reg) : (s.bumpIndex x).ram = s.ram := by
  unfold State.bumpIndex
  split <;> rfl

theorem State.bumpIndex_params (s : State) (x : Reg) : (s.bumpIndex x).params = s.params :=
  s.bumpIndex_unchanged x .params (by decide)

/-- Where the post-increment leaves `I` after updates that spare it (spec/42_index_memory.md R154, R155). -/
theorem bumpIndex_i_toNat_of_unchanged {es : List Element} {s u : State} (hu : UnchangedBut es s u)
    (hi : Element.i ∉ es) (hq : Element.quirks ∉ es) (x : Reg) :
    (u.bumpIndex x).i.toNat = if s.quirk .incrementI then (s.i.toNat + x.toNat + 1) % 4096 else s.i.toNat := by
  have hsame : u.i = s.i := hu .i hi
  rw [State.bumpIndex_i_toNat, State.quirk_congr (hu .quirks hq), hsame]

/-! ## The statements -/

/-- Settles O18: the two cases of a read after a write, and the canonical form. -/
theorem memoryReadAfterWrite : Obligations.MemoryReadAfterWrite :=
  fun _ a k b hs => ⟨State.memRead_memWrite hs a k b, State.memWrite_memWf hs a b⟩

/-- Settles O19: two byte writes at the masked `pc`, which is `pc` mod 4096. -/
theorem placedWordIsFetchedNext : Obligations.PlacedWordIsFetchedNext := by
  intro s w hs
  rw [State.withFetchWord_toNat]
  refine ⟨placeWord_fetch16 hs w, rfl, s.setPc_toNat s.pc, fun a ha => ?_⟩
  have hpc : s.ready.pc.toNat = s.pc.toNat % 4096 := s.setPc_toNat s.pc
  have hhi := ha s.pc.toNat (by simp)
  have hlo := ha (s.pc.toNat + 1) (by simp)
  rw [placeWord_eq, State.memRead_memWrite_other, State.memRead_memWrite_other]
  · rfl
  · rwa [hpc, Nat.mod_mod]
  · rwa [hpc, Nat.mod_add_mod]

/-- Settles O20: the popped address plus 2, masked; the bounds of `sp` are those of the rule's check. -/
theorem retPopsAndReturnsPastTheCall : Obligations.RetPopsAndReturnsPastTheCall := by
  refine ⟨fun w hw => decode_of_row (i := .ret) hw, fun s => ⟨fun ⟨hpos, hle⟩ => ?_, exec_ret_fault⟩⟩
  refine ⟨_, exec_ret_of_sp hpos hle, ?_, ?_, (s.setSp_unchanged _).append (State.setPc_unchanged _ _)⟩
  · have h := (s.stackSlot s.sp).isLt
    have h2 : (2 : Word).toNat = 2 := rfl
    rw [State.setPc_toNat, BitVec.toNat_add, h2, Config.ramSize]
    omega
  · rw [State.setPc_sp, State.setSp_sp]
    bv_omega

/-- Settles O23: the slot at the incremented `sp` is the one written. -/
theorem callPushesItsOwnAddress : Obligations.CallPushesItsOwnAddress := by
  refine ⟨decodesRow_of_fieldT decode_top2, fun nnn s => ⟨fun hsp => ?_, exec_call_fault nnn⟩⟩
  have hnew : (s.sp + 1).toNat = s.sp.toNat + 1 := by bv_omega
  refine ⟨_, exec_call_of_sp nnn hsp, hnew, ?_, fun k hk => ?_, State.setPc_addr_toNat _ nnn,
    ((s.setSp_unchanged _).append (State.setStackSlot_unchanged _ _ _)).append (State.setPc_unchanged _ _)⟩
  · rw [State.stackSlot_setPc, State.stackSlot_setStackSlot]
    exact if_pos rfl
  · simp only [State.setPc_stack, State.setStackSlot_stack, State.setSp_stack, Fin.getElem_fin]
    exact Vector.getElem_set_ne _ _ (by omega)

/-- Settles O24: the return pops the slot that the call has just written. -/
theorem callThenReturnResumesAfterTheCall : Obligations.CallThenReturnResumesAfterTheCall := by
  intro nnn s hsp
  obtain ⟨t, ht, htsp, hslot, -, -, hst⟩ := (callPushesItsOwnAddress.2 nnn s).1 hsp
  obtain ⟨u, hu, hupc, husp, htu⟩ := (retPopsAndReturnsPastTheCall.2 t).1 ⟨by omega, by omega⟩
  have hspback : u.sp = s.sp := BitVec.eq_of_toNat_eq (by omega)
  have hframe : UnchangedBut [.sp, .stack, .pc] s u := hst.trans (htu.mono (by simp))
  exact ⟨t, u, ht, hu, hslot ▸ hupc, hspback, hframe.of_same hspback⟩

/-- Settles O39: the loop of stores, then the post-increment and the advance, which leave `ram` alone. -/
theorem ldMiVxStoresTheBlock : Obligations.LdMiVxStoresTheBlock := by
  refine ⟨fun w hw => decode_of_row (i := .ldMiVx 0) hw, fun x s => ?_⟩
  have hstore := State.storeRegs_unchanged (x.toNat + 1) s
  have hbump := hstore.append (State.bumpIndex_unchanged _ x)
  refine ⟨_, rfl, advanced_of_unchanged hbump (by decide), hbump.advance,
    bumpIndex_i_toNat_of_unchanged hstore (by decide) (by decide) x, fun a ha => ?_, fun hs => ⟨?_, fun k hk => ?_⟩⟩
  · rw [State.memRead_advance, State.memRead_congr (State.bumpIndex_ram _ x) (State.bumpIndex_params _ x)]
    exact State.storeRegs_ram _ s a ha
  · exact (State.memWf_congr (State.bumpIndex_ram _ x) (State.bumpIndex_params _ x)).2 (State.storeRegs_memWf _ hs)
  · rw [State.memRead_advance, State.memRead_congr (State.bumpIndex_ram _ x) (State.bumpIndex_params _ x),
      State.storeRegs_memRead (by omega) hs (by omega), BitVec.ofNat_toNat, BitVec.setWidth_eq]

/-- Settles O40: the loop of loads, then the post-increment and the advance, which leave the registers alone. -/
theorem ldVxMiLoadsTheBlock : Obligations.LdVxMiLoadsTheBlock := by
  refine ⟨fun w hw => decode_of_row (i := .ldVxMi 0) hw, fun x s => ?_⟩
  have hload := State.loadRegs_unchanged (x.toNat + 1) s
  have hbump := hload.append (State.bumpIndex_unchanged _ x)
  refine ⟨_, rfl, advanced_of_unchanged hbump (by decide), hbump.advance,
    bumpIndex_i_toNat_of_unchanged hload (by decide) (by decide) x, fun k => ?_⟩
  rw [State.reg_advance, State.bumpIndex_unchanged _ x .v (by decide) k, State.loadRegs_reg (by omega)]
  simp only [Nat.lt_succ_iff]

end Sys2Proof.Machine
end

section
/-!
PROOFS. The register ALU: logic, subtractions, shifts, the write order and the random byte (spec/41_register_alu.md
R120, R124 to R132).
-/

namespace Sys2Proof.Machine

/-! ## Instructions that write a result and VF (R120) -/

/-- The result in `V[x]`, then VF = 0 under ZERO_VF, then the normal advance (R124 to R126). -/
theorem zeroVfQuirk_completes {s : State} {i : Instr} {x : Reg} {result : Byte}
    (hi : exec i s = .next (s.setReg x result).zeroVfQuirk.advance) :
    ∃ t, exec i s = .next t ∧ Advanced s t ∧ UnchangedBut [.v, .pc] s t ∧
      ∀ r, t.reg r = if s.quirk .zeroVf ∧ r = vf then 0 else if r = x then result else s.reg r := by
  have hu := (s.setReg_unchanged x result).trans (State.zeroVfQuirk_unchanged _)
  obtain ⟨t, ht, hadv, hframe, hreg⟩ := advance_completes hi hu (by decide)
  refine ⟨t, ht, hadv, hframe, fun r => ?_⟩
  rw [hreg, State.reg_zeroVfQuirk, State.quirk_setReg, State.reg_setReg]

/-- With VF as destination ZERO_VF leaves 0 there (D22). -/
theorem zeroVfQuirk_completes_vf {s : State} {i : Instr} {result : Byte}
    (hi : exec i s = .next (s.setReg vf result).zeroVfQuirk.advance) :
    ∃ t, exec i s = .next t ∧ t.reg vf = if s.quirk .zeroVf then 0 else result := by
  obtain ⟨t, ht, -, -, hreg⟩ := zeroVfQuirk_completes hi
  exact ⟨t, ht, by simp [hreg]⟩

/-- Where `x` is VF, VF_ORDER says which of the two writes is last; elsewhere the order does not show. -/
theorem State.reg_writeByVfOrder_eq (s : State) (x r : Reg) (result flag : Byte) :
    (s.writeByVfOrder x result flag).reg r =
      if r = x ∧ (x ≠ vf ∨ s.params.vfOrder = .tableOrder) then result
      else if r = vf then flag else s.reg r := by
  rw [State.reg_writeByVfOrder]
  cases s.params.vfOrder with
  | tableOrder => simp
  | flagLast =>
    by_cases hr : r = vf
    · subst hr
      by_cases hx : vf = x
      · subst hx
        simp
      · simp [hx]
    · by_cases hx : r = x
      · subst hx
        simp [hr]
      · simp [hr, hx]

/-- The result and the flag in the order of VF_ORDER, then the normal advance (R128 to R131). -/
theorem writeByVfOrder_completes {s : State} {i : Instr} {x : Reg} {result flag : Byte}
    (hi : exec i s = .next (s.writeByVfOrder x result flag).advance) :
    ∃ t, exec i s = .next t ∧ Advanced s t ∧ UnchangedBut [.v, .pc] s t ∧
      ∀ r, t.reg r = if r = x ∧ (x ≠ vf ∨ s.params.vfOrder = .tableOrder) then result
        else if r = vf then flag else s.reg r := by
  obtain ⟨t, ht, hadv, hframe, hreg⟩ :=
    advance_completes hi (s.writeByVfOrder_unchanged x result flag) (by decide)
  exact ⟨t, ht, hadv, hframe, fun r => (hreg r).trans (s.reg_writeByVfOrder_eq x r result flag)⟩

/-- The same, with the result and the flag as numbers. -/
theorem writeByVfOrder_completes_toNat {s : State} {i : Instr} {x : Reg} {result flag : Byte} {nr nf : Nat}
    (hi : exec i s = .next (s.writeByVfOrder x result flag).advance) (hr : result.toNat = nr)
    (hf : flag.toNat = nf) :
    ∃ t, exec i s = .next t ∧ Advanced s t ∧ UnchangedBut [.v, .pc] s t ∧
      ∀ r, (t.reg r).toNat = if r = x ∧ (x ≠ vf ∨ s.params.vfOrder = .tableOrder) then nr
        else if r = vf then nf else (s.reg r).toNat := by
  obtain ⟨t, ht, hadv, hframe, hreg⟩ := writeByVfOrder_completes hi
  refine ⟨t, ht, hadv, hframe, fun r => ?_⟩
  rw [hreg, apply_ite BitVec.toNat, apply_ite BitVec.toNat, hr, hf]

/-- With VF as destination its final value is the last write (R120). -/
theorem writeByVfOrder_completes_vf {s : State} {i : Instr} {result flag : Byte}
    (hi : exec i s = .next (s.writeByVfOrder vf result flag).advance) :
    ∃ t, exec i s = .next t ∧ t.reg vf = match s.params.vfOrder with
      | .tableOrder => result
      | .flagLast => flag := by
  obtain ⟨t, ht, -, -, hreg⟩ := writeByVfOrder_completes hi
  refine ⟨t, ht, ?_⟩
  rw [hreg]
  cases s.params.vfOrder <;> simp

/-- The same, with the result and the flag as numbers. -/
theorem writeByVfOrder_completes_vf_toNat {s : State} {i : Instr} {result flag : Byte} {nr nf : Nat}
    (hi : exec i s = .next (s.writeByVfOrder vf result flag).advance) (hr : result.toNat = nr)
    (hf : flag.toNat = nf) :
    ∃ t, exec i s = .next t ∧ (t.reg vf).toNat = match s.params.vfOrder with
      | .tableOrder => nr
      | .flagLast => nf := by
  obtain ⟨t, ht, hvf⟩ := writeByVfOrder_completes_vf hi
  refine ⟨t, ht, ?_⟩
  rw [hvf]
  cases s.params.vfOrder
  exacts [hr, hf]

/-! ## Differences and shifts as numbers (R128 to R131) -/

theorem sub_toNat (a b : Byte) : (a - b).toNat = (a.toNat + 256 - b.toNat) % 256 := by
  have hb := b.isLt
  rw [BitVec.toNat_sub]
  omega

theorem noBorrowFlag_eq (a b : Byte) : noBorrowFlag a b = if b.toNat ≤ a.toNat then 1 else 0 := by
  simp only [noBorrowFlag, flagByte, decide_eq_true_eq]

theorem noBorrowFlag_toNat (a b : Byte) : (noBorrowFlag a b).toNat = if a.toNat ≥ b.toNat then 1 else 0 := by
  simp only [noBorrowFlag, flagByte_toNat, decide_eq_true_eq]

theorem shiftRight_one_toNat (b : Byte) : (b >>> 1).toNat = b.toNat / 2 := by
  rw [BitVec.toNat_ushiftRight, Nat.shiftRight_eq_div_pow]

theorem shiftLeft_one_toNat (b : Byte) : (b <<< 1).toNat = b.toNat * 2 % 256 := by
  rw [BitVec.toNat_shiftLeft, Nat.shiftLeft_eq]

theorem and_one_toNat (b : Byte) : (b &&& 1).toNat = b.toNat % 2 := by
  rw [BitVec.toNat_and]
  exact Nat.and_one_is_mod _

theorem shiftedOutRight_toNat (b : Byte) : (shiftedOutRight b).toNat = b.toNat % 2 := and_one_toNat b

/-- Bit 7 alone is left after a shift by 7. -/
theorem shiftedOutLeft_toNat (b : Byte) : (shiftedOutLeft b).toNat = b.toNat / 128 := by
  have hb := b.isLt
  rw [shiftedOutLeft, and_one_toNat, BitVec.toNat_ushiftRight, Nat.shiftRight_eq_div_pow]
  omega

/-! ## The statements -/

/-- Settles O31: the three forms differ in the bitwise result alone. -/
theorem logicOpsAndZeroVf : Obligations.LogicOpsAndZeroVf :=
  ⟨fun _ hw => decode_of_row (i := .orVxVy 0 0) hw, fun _ hw => decode_of_row (i := .andVxVy 0 0) hw,
    fun _ hw => decode_of_row (i := .xorVxVy 0 0) hw,
    fun _ _ _ => ⟨zeroVfQuirk_completes rfl, zeroVfQuirk_completes rfl, zeroVfQuirk_completes rfl⟩⟩

/-- Settles O33: the difference of the entry values, one way round and the other. -/
theorem subtractionsWriteDifferenceAndNoBorrow : Obligations.SubtractionsWriteDifferenceAndNoBorrow :=
  ⟨fun _ hw => decode_of_row (i := .sub 0 0) hw, fun _ hw => decode_of_row (i := .subn 0 0) hw, fun x y s =>
    ⟨writeByVfOrder_completes_toNat rfl (sub_toNat (s.reg x) (s.reg y)) (noBorrowFlag_toNat (s.reg x) (s.reg y)),
      writeByVfOrder_completes_toNat rfl (sub_toNat (s.reg y) (s.reg x)) (noBorrowFlag_toNat (s.reg y) (s.reg x))⟩⟩

/-- Settles O34: the source is the operand form that SHIFT_X_REGISTER selects. -/
theorem shiftsWriteResultAndShiftedOutBit : Obligations.ShiftsWriteResultAndShiftedOutBit := by
  refine ⟨fun _ hw => decode_of_row (i := .shr 0 0) hw, fun _ hw => decode_of_row (i := .shl 0 0) hw, ?_⟩
  rintro x y s src rfl
  exact ⟨writeByVfOrder_completes_toNat rfl (shiftRight_one_toNat _) (shiftedOutRight_toNat _),
    writeByVfOrder_completes_toNat rfl (shiftLeft_one_toNat _) (shiftedOutLeft_toNat _)⟩

/-- Settles O35: each entry of the table is the last write of its instruction. -/
theorem finalVfFollowsTheWriteOrderTable : Obligations.FinalVfFollowsTheWriteOrderTable := by
  rintro y s a b rfl rfl
  refine ⟨zeroVfQuirk_completes_vf rfl, zeroVfQuirk_completes_vf rfl, zeroVfQuirk_completes_vf rfl,
    ?add, ?sub, ?subn, ?shr, ?shl⟩
  case add =>
    obtain ⟨t, ht, -, -, hreg⟩ := addVxVyWritesSumThenCarry.2 vf y s
    refine ⟨t, ht, ?_⟩
    have ha := (s.reg vf).isLt
    have hb := (s.reg y).isLt
    rw [hreg, if_pos rfl]
    split <;> omega
  case sub => exact noBorrowFlag_eq _ _ ▸ writeByVfOrder_completes_vf rfl
  case subn => exact noBorrowFlag_eq _ _ ▸ writeByVfOrder_completes_vf rfl
  case shr => exact writeByVfOrder_completes_vf_toNat rfl (shiftRight_one_toNat _) (shiftedOutRight_toNat _)
  case shl => exact writeByVfOrder_completes_vf_toNat rfl (shiftLeft_one_toNat _) (shiftedOutLeft_toNat _)

/-- Settles O36: the count of draws goes up with the byte it numbers, which the mask then cuts down to NN. -/
theorem rndMasksOneDraw : Obligations.RndMasksOneDraw := by
  refine ⟨decodesRow_of_fieldT decode_topC, fun x nn s => ?_⟩
  have hu := s.countDraw_unchanged.append (s.countDraw.setReg_unchanged x (s.randomByte &&& nn))
  have hreg (r : Reg) := s.countDraw.reg_setReg x r (s.randomByte &&& nn)
  refine ⟨_, rfl, (hreg x).trans (if_pos rfl), ?_, rfl,
    fun r hr => (hreg r).trans (if_neg (List.ne_of_not_mem_cons hr)),
    advanced_of_unchanged hu (by decide), hu.advance.mono (by simp)⟩
  rw [State.reg_advance, State.reg_setReg_same, BitVec.and_assoc, BitVec.and_not_self]
  exact BitVec.and_zero

end Sys2Proof.Machine
end

section
/-!
PROOFS. The display: 00E0, DXYN as a set operation and as a row datapath, and the packed image
(spec/43_display_blitter.md; spec/10_state.md R31).
-/

namespace Sys2Proof.Machine

/-! ## Where a sprite bit falls (R173) -/

/-- The column of a bit and the row of its sprite row are reduced independently of each other. -/
theorem target_eq_pixel_iff {clip : Bool} {cx cy : Byte} {c r : Nat} {px : Fin 64} {py : Fin 32} :
    target clip cx cy c r = .pixel px py ↔
      if clip then px.val = cx.toNat % 64 + c ∧ py.val = cy.toNat % 32 + r
      else px.val = (cx.toNat + c) % 64 ∧ py.val = (cy.toNat + r) % 32 := by
  have hpx := px.isLt
  have hpy := py.isLt
  unfold target
  cases clip with
  | false => simp [Fin.ext_iff, eq_comm]
  | true =>
    simp only [if_true]
    split
    · simp [Fin.ext_iff, eq_comm]
    · next hout =>
      simp only [reduceCtorEq, false_iff]
      omega

/-- Column `c` of a sprite falls on column `px` of the display (`target_eq_pixel_iff_column_row`). -/
def InColumn (clip : Bool) (cx : Byte) (c : Nat) (px : Fin 64) : Prop :=
  if clip then px.val = cx.toNat % 64 + c else px.val = (cx.toNat + c) % 64

theorem target_eq_pixel_iff_column_row {clip : Bool} {cx cy : Byte} {c r : Nat} {px : Fin 64} {py : Fin 32} :
    target clip cx cy c r = .pixel px py ↔ InColumn clip cx c px ∧ spriteRowAt clip cy r = some py.val := by
  have hpy := py.isLt
  rw [target_eq_pixel_iff]
  cases clip with
  | false => simp [InColumn, spriteRowAt, eq_comm]
  | true =>
    simp only [InColumn, spriteRowAt, if_true, Option.ite_none_right_eq_some, Option.some.injEq]
    refine and_congr_right fun _ => ?_
    omega

/-- Two rows of one sprite that fall on one display row are one row. -/
theorem spriteRowAt_injective {clip : Bool} {cy : Byte} {r r' py : Nat} (hr : r < 32) (hr' : r' < 32)
    (h : spriteRowAt clip cy r = some py) (h' : spriteRowAt clip cy r' = some py) : r = r' := by
  cases clip with
  | false =>
    simp only [spriteRowAt, Bool.false_eq_true, if_false, Option.some.injEq] at h h'
    omega
  | true =>
    simp only [spriteRowAt, if_true, Option.ite_none_right_eq_some, Option.some.injEq] at h h'
    omega

/-! ## What DXYN does to pixels (R172, R174) -/

section
variable (s : State) (cx cy : Byte) {n : Nat} (hn : n ≤ 32)
include hn

theorem State.blit_pix_of_touched {px : Fin 64} {py : Fin 32} (h : Touched s cx cy n px py) :
    (s.blit cx cy n).1.pix px py = !s.display.pix px py := by
  have hmem := (s.mem_scanPixels cx cy n px py).2 h
  rw [s.blit_eq_scan, (foldl_touchPixel _ (s.scanPixels_nodup cx cy hn) _).1]
  simp [hmem]

theorem State.blit_pix_of_not_touched {px : Fin 64} {py : Fin 32} (h : ¬ Touched s cx cy n px py) :
    (s.blit cx cy n).1.pix px py = s.display.pix px py := by
  have hmem := (s.mem_scanPixels cx cy n px py).not.2 h
  rw [s.blit_eq_scan, (foldl_touchPixel _ (s.scanPixels_nodup cx cy hn) _).1]
  simp [hmem]

/-- The collision is met exactly when some touched pixel was set before the draw. -/
theorem State.blit_collision_iff :
    (s.blit cx cy n).2 = true ↔ ∃ px py, Touched s cx cy n px py ∧ s.display.pix px py = true := by
  rw [s.blit_eq_scan, (foldl_touchPixel _ (s.scanPixels_nodup cx cy hn) _).2]
  simp [State.mem_scanPixels]

end

theorem flagByte_eq_one_iff (b : Bool) : flagByte b = 1 ↔ b = true := by
  cases b <;> decide

theorem flagByte_eq (b : Bool) : flagByte b = 1 ∨ flagByte b = 0 := by
  cases b <;> decide

/-- Touched pixels depend on `ram`, `I` and the clipping quirk alone. -/
theorem touched_congr {es : List Element} {s t : State} (hu : UnchangedBut es s t) (hram : Element.ram ∉ es)
    (hi : Element.i ∉ es) (hq : Element.quirks ∉ es) (cx cy : Byte) (n : Nat) (px : Fin 64) (py : Fin 32) :
    Touched t cx cy n px py ↔ Touched s cx cy n px py := by
  have hindexed (r : Nat) : t.indexed r = s.indexed r := congrArg (fun w : Word => w.toNat + r) (hu .i hi)
  have hread (r : Nat) : t.memRead (t.indexed r) = s.memRead (s.indexed r) := by rw [hindexed, hu .ram hram]
  simp only [Touched, hread, State.quirk_congr (hu .quirks hq)]

/-! ## The row datapath (R180) -/

/-- The sprite byte at the left end of a display row: column `c` is bit `63 - c`. -/
theorem spriteWord_getLsbD (b : Byte) (q : Nat) :
    (b.setWidth 64 <<< 56).getLsbD q = true ↔ ∃ c, c < 8 ∧ spriteBit b c = true ∧ q + c = 63 := by
  simp only [BitVec.getLsbD_shiftLeft, BitVec.getLsbD_setWidth, spriteBit, Bool.and_eq_true, Bool.not_eq_true',
    decide_eq_true_eq, decide_eq_false_iff_not]
  constructor
  · rintro ⟨⟨hq, h56⟩, -, hb⟩
    exact ⟨63 - q, by omega, by rwa [show 7 - (63 - q) = q - 56 by omega], by omega⟩
  · rintro ⟨c, hc, hb, hq⟩
    exact ⟨⟨by omega, by omega⟩, by omega, by rwa [show q - 56 = 7 - c by omega]⟩

/-- The mask of a sprite byte has the columns on which its set bits fall: the shift drops and the rotation wraps. -/
theorem spriteRowMask_getLsbD (clip : Bool) (cx b : Byte) (px : Fin 64) :
    (spriteRowMask clip cx b).getLsbD (63 - px.val) = true ↔
      ∃ c, c < 8 ∧ spriteBit b c = true ∧ InColumn clip cx c px := by
  have hpx := px.isLt
  cases clip with
  | true =>
    simp only [spriteRowMask, InColumn, if_true, BitVec.getLsbD_ushiftRight, spriteWord_getLsbD]
    refine exists_congr fun c => and_congr_right fun hc => and_congr_right fun _ => ?_
    omega
  | false =>
    have hbit : 63 - px.val < 64 := by omega
    simp only [spriteRowMask, InColumn, Bool.false_eq_true, if_false, BitVec.getLsbD_rotateRight, Bool.cond_decide,
      hbit, decide_true, Bool.true_and]
    split
    · rw [spriteWord_getLsbD]
      refine exists_congr fun c => and_congr_right fun hc => and_congr_right fun _ => ?_
      omega
    · rw [spriteWord_getLsbD]
      refine exists_congr fun c => and_congr_right fun hc => and_congr_right fun _ => ?_
      omega

/-- On a display row to which sprite row `r` maps, the touched pixels are the bits of that row's mask. -/
theorem touched_iff_spriteRowMask {s : State} {cx cy : Byte} {n r : Nat} {py : Fin 32} (hn : n ≤ 32) (hr : r < n)
    (hrow : spriteRowAt (s.quirk .displayClipping) cy r = some py.val) (px : Fin 64) :
    Touched s cx cy n px py ↔
      (spriteRowMask (s.quirk .displayClipping) cx (s.memRead (s.indexed r))).getLsbD (63 - px.val) = true := by
  rw [spriteRowMask_getLsbD]
  constructor
  · rintro ⟨r', hr', c, hc, hb, ht⟩
    obtain ⟨hcol, hrow'⟩ := target_eq_pixel_iff_column_row.1 ht
    obtain rfl := spriteRowAt_injective (by omega) (by omega) hrow hrow'
    exact ⟨c, hc, hb, hcol⟩
  · rintro ⟨c, hc, hb, hcol⟩
    exact ⟨r, hr, c, hc, hb, target_eq_pixel_iff_column_row.2 ⟨hcol, hrow⟩⟩

/-- A touched pixel lies on a display row to which a sprite row maps. -/
theorem exists_row_of_touched {s : State} {cx cy : Byte} {n : Nat} {px : Fin 64} {py : Fin 32}
    (h : Touched s cx cy n px py) : ∃ r, r < n ∧ spriteRowAt (s.quirk .displayClipping) cy r = some py.val := by
  obtain ⟨r, hr, c, -, -, ht⟩ := h
  exact ⟨r, hr, (target_eq_pixel_iff_column_row.1 ht).2⟩

/-- A display row is its pixels. -/
theorem row_ext {v w : BitVec 64} (h : ∀ px : Fin 64, v.getLsbD (63 - px.val) = w.getLsbD (63 - px.val)) : v = w := by
  apply BitVec.eq_of_getLsbD_eq
  intro k hk
  have hpx := h ⟨63 - k, by omega⟩
  rwa [show 63 - (63 - k) = k by omega] at hpx

theorem row_ne_zero_iff {w : BitVec 64} : w ≠ 0 ↔ ∃ px : Fin 64, w.getLsbD (63 - px.val) = true := by
  constructor
  · intro hw
    by_contra hno
    exact hw (row_ext fun px => (Bool.eq_false_iff.2 fun hpx => hno ⟨px, hpx⟩).trans BitVec.getLsbD_zero.symm)
  · rintro ⟨px, hpx⟩ rfl
    simp at hpx

/-! ## The statements -/

/-- Settles O41: the bitmap is replaced by the clear one, then the normal advance. -/
theorem clsClearsEveryPixel : Obligations.ClsClearsEveryPixel := by
  refine ⟨fun w hw => decode_of_row (i := .cls) hw, fun s => ?_⟩
  have hu := (s.setDisplay_unchanged Display.clear).append (State.setDrawDisplay_unchanged _ 1)
  exact ⟨_, rfl, Display.pix_clear, rfl, advanced_of_unchanged hu (by decide), hu.advance⟩

/-- Settles O42: the scan toggles each touched pixel once, so that it meets every touched pixel as it was. -/
theorem drwIsXorOfTouchedPixels : Obligations.DrwIsXorOfTouchedPixels := by
  refine ⟨decodesRow_of_fieldT decode_topD, fun x y n s => ?_⟩
  have hn : n.toNat ≤ 32 := by omega
  have hu := ((s.setDisplay_unchanged (s.blit (s.reg x) (s.reg y) n.toNat).1).append
    (State.setReg_unchanged _ vf (flagByte (s.blit (s.reg x) (s.reg y) n.toNat).2))).append
    (State.setDrawDisplay_unchanged _ 1)
  have hvf := State.reg_setReg_same (s.setDisplay (s.blit (s.reg x) (s.reg y) n.toNat).1) vf
    (flagByte (s.blit (s.reg x) (s.reg y) n.toNat).2)
  refine ⟨_, rfl, fun px py => ⟨s.blit_pix_of_touched _ _ hn, s.blit_pix_of_not_touched _ _ hn⟩, ?_, ?_,
    fun r hr => ?_, rfl, advanced_of_unchanged hu (by decide), hu.advance⟩
  · rw [State.reg_advance, State.reg_setDrawDisplay, hvf]
    exact flagByte_eq _
  · rw [State.reg_advance, State.reg_setDrawDisplay, hvf, flagByte_eq_one_iff]
    exact s.blit_collision_iff _ _ hn
  · rw [State.reg_advance, State.reg_setDrawDisplay, State.reg_setReg, if_neg (List.ne_of_not_mem_cons hr),
      State.reg_setDisplay]

/-- Settles O43: each row by its pixels, which `touched_iff_spriteRowMask` finds in the mask. -/
theorem drwIsTheRowDatapath : Obligations.DrwIsTheRowDatapath := by
  intro x y n s t h
  have hn : n.toNat ≤ 32 := by omega
  obtain ⟨u, hu, hpix, -, hvf, -⟩ := drwIsXorOfTouchedPixels.2 x y n s
  cases h.symm.trans hu
  refine ⟨fun r py hr hrow => row_ext fun px => ?_, fun py hno => row_ext fun px => ?_, hvf.trans ⟨?_, ?_⟩⟩
  · have htouched := touched_iff_spriteRowMask (cx := s.reg x) hn hr hrow px
    rw [BitVec.getLsbD_xor]
    by_cases hm : Touched s (s.reg x) (s.reg y) n.toNat px py
    · rw [htouched.1 hm, Bool.xor_true]
      exact (hpix px py).1 hm
    · rw [Bool.eq_false_iff.2 (htouched.not.1 hm), Bool.xor_false]
      exact (hpix px py).2 hm
  · refine (hpix px py).2 fun hm => ?_
    obtain ⟨r, hr, hrow⟩ := exists_row_of_touched hm
    exact hno r hr hrow
  · rintro ⟨px, py, hm, hset⟩
    obtain ⟨r, hr, hrow⟩ := exists_row_of_touched hm
    refine ⟨r, py, hr, hrow, row_ne_zero_iff.2 ⟨px, ?_⟩⟩
    rw [BitVec.getLsbD_and, (touched_iff_spriteRowMask hn hr hrow px).1 hm, Bool.and_true]
    exact hset
  · rintro ⟨r, py, hr, hrow, hmeet⟩
    obtain ⟨px, hpx⟩ := row_ne_zero_iff.1 hmeet
    rw [BitVec.getLsbD_and, Bool.and_eq_true] at hpx
    exact ⟨px, py, (touched_iff_spriteRowMask hn hr hrow px).2 hpx.2, hpx.1⟩

/-- Settles O44: the first draw changes nothing that the second reads of the sprite, so both touch the same pixels. -/
theorem drawingTwiceRestoresTheDisplay : Obligations.DrawingTwiceRestoresTheDisplay := by
  intro x y n s t u hx hy ht hu
  obtain ⟨t', ht', hpixt, -, -, hregs, -, -, hframe⟩ := drwIsXorOfTouchedPixels.2 x y n s
  cases ht.symm.trans ht'
  obtain ⟨u', hu', hpixu, -, hvf, -⟩ := drwIsXorOfTouchedPixels.2 x y n t
  cases hu.symm.trans hu'
  have htouched (px : Fin 64) (py : Fin 32) :
      Touched t (t.reg x) (t.reg y) n.toNat px py ↔ Touched s (s.reg x) (s.reg y) n.toNat px py := by
    rw [hregs x (by simpa using hx), hregs y (by simpa using hy)]
    exact touched_congr hframe (by decide) (by decide) (by decide) _ _ _ _ _
  refine ⟨Display.ext_pix fun px py => ?_, hvf.trans ?_⟩
  · by_cases hm : Touched s (s.reg x) (s.reg y) n.toNat px py
    · rw [(hpixu px py).1 ((htouched px py).2 hm), (hpixt px py).1 hm, Bool.not_not]
    · rw [(hpixu px py).2 ((htouched px py).not.2 hm), (hpixt px py).2 hm]
  · refine exists_congr fun px => exists_congr fun py => ?_
    rw [htouched]
    refine and_congr_right fun hm => ?_
    rw [(hpixt px py).1 hm, Bool.not_eq_true']

/-- Settles O45: the definition of the target, and R175. -/
theorem spriteBitsFallOnDistinctPixels : Obligations.SpriteBitsFallOnDistinctPixels :=
  fun _ _ _ _ _ _ _ hc hr =>
    ⟨target_eq_pixel_iff, fun _ _ hc' hr' => target_injective hc hc' (by omega) (by omega)⟩

/-- Settles O46: byte `py * 8 + px / 8` is the eighth of row `py` that holds column `px`, its first column in bit 7. -/
theorem packedImageHoldsThePixels : Obligations.PackedImageHoldsThePixels := by
  intro s
  refine ⟨by rw [State.packedDisplay, List.length_map, List.length_finRange], fun px py => ?_⟩
  have hpx := px.isLt
  have hpy := py.isLt
  have hk : py.val * 8 + px.val / 8 < 256 := by omega
  have hbyte : s.packedDisplay.getD (py.val * 8 + px.val / 8) 0 = s.display.packedByte ⟨_, hk⟩ := by
    simp [State.packedDisplay, List.getD_eq_getElem?_getD, hk]
  have hdiv : (py.val * 8 + px.val / 8) / 8 = py.val := by omega
  have hmod : (py.val * 8 + px.val / 8) % 8 = px.val / 8 := by omega
  have hlt : 7 - px.val % 8 < 8 := by omega
  have hbit : 56 - 8 * (px.val / 8) + (7 - px.val % 8) = 63 - px.val := by omega
  rw [hbyte, Display.packedByte]
  simp only [BitVec.getLsbD_extractLsb', hlt, decide_true, Bool.true_and, hdiv, hmod, hbit, Display.pix,
    Fin.getElem_fin]

end Sys2Proof.Machine
end

section
/-!
PROOFS. The keypad, the timers, and the Beeps of a run (spec/44_keypad_timer_regs.md R190 to R197;
spec/60_exceptions.md R220, R225).
-/

namespace Sys2Proof.Machine

/-! ## One key (R190, R193) -/

/-- A mask with key `k` alone down. -/
theorem keyMask_getLsbD {k : Nat} (hk : k < 16) (j : Nat) : (1#16 <<< k).getLsbD j = decide (j = k) := by
  rw [Bool.eq_iff_iff, BitVec.getLsbD_shiftLeft, BitVec.getLsbD_one]
  simp only [Bool.and_eq_true, Bool.not_eq_true', decide_eq_true_eq, decide_eq_false_iff_not]
  omega

/-! ## Timers (R220) -/

/-- On `delay_timer` Ticks are countdowns. -/
theorem State.delayTimer_tick_iterate (s : State) (k : Nat) :
    (State.tick^[k] s).delayTimer = countdown^[k] s.delayTimer :=
  Function.Semiconj.iterate_right (f := State.delayTimer) (fun _ => rfl) k s

theorem State.tick_unchanged (s : State) : UnchangedBut [.delayTimer, .soundTimer] s s.tick :=
  (s.setDelay_unchanged _).append (State.setSound_unchanged _ _)

/-! ## The trace of a run (R225) -/

theorem Session.issue_tick {z : Session} (hm : z.mark = none) : z.issue .tick = z.tick := by
  rw [Session.issue, hm]
  rfl

theorem Session.tick_trace (z : Session) :
    z.tick.trace = z.trace ++ (if z.machine.soundTimer = 0 then [] else [Event.beep]) := by
  by_cases h : z.machine.soundTimer = 0 <;> simp [Session.tick, State.beeps, h]

/-- A Step sends nothing out. -/
theorem Session.step_trace (z : Session) : z.step.trace = z.trace := by
  unfold Session.step
  split <;> rfl

/-- A command lengthens the trace by one where it is a Tick that finds `sound_timer` nonzero before a mark, and else
leaves it as it is. -/
theorem Session.issue_trace_length (z : Session) (c : Command) :
    (z.issue c).trace.length =
      z.trace.length + if z.mark = none ∧ c = .tick ∧ z.machine.soundTimer ≠ 0 then 1 else 0 := by
  by_cases hm : z.mark = none
  case neg => simp [Session.issue_of_marked hm, hm]
  cases c with
  | tick =>
    rw [Session.issue_tick hm, Session.tick_trace, List.length_append]
    by_cases hs : z.machine.soundTimer = 0
    · rw [if_pos hs, if_neg fun h => h.2.2 hs]
      rfl
    · rw [if_neg hs, if_pos ⟨hm, rfl, hs⟩]
      rfl
  | step => simp [Session.issue_step hm, Session.step_trace]
  | _ => simp [Session.issue, hm]

/-! ## The statements -/

/-- Settles O47: two skips, on the key down and on the key up, where `V[x]` names a key. -/
theorem keySkips : Obligations.KeySkips := by
  refine ⟨fun _ hw => decode_of_row (i := .skp 0) hw, fun _ hw => decode_of_row (i := .sknp 0) hw,
    fun x s => ⟨fun hx => ⟨?_, ?_⟩, fun hx => ⟨exec_skp_fault hx, exec_sknp_fault hx⟩⟩⟩
  · exact ⟨_, exec_skp_of_key hx, s.skipIf_unchanged _, s.skipIf_pc_toNat _⟩
  · refine ⟨_, exec_sknp_of_key hx, s.skipIf_unchanged _, (s.skipIf_pc_toNat _).trans ?_⟩
    cases hkey : s.keypad.getLsbD (s.reg x).toNat <;> simp [State.keyDown, hkey]

/-- Settles O49: on the first Step the one marked key is down, on the second it is the lowest marked key that is up. -/
theorem keyPressThenReleaseCompletesTheWait : Obligations.KeyPressThenReleaseCompletesTheWait := by
  intro x s k hk hfxoa hkeypad
  have hmarked : s.fxoaState ||| s.keypad = s.keypad := by
    rw [hfxoa]
    exact BitVec.zero_or
  obtain ⟨t, ht, htfxoa, hst⟩ := (ldVxKWaitsForARelease.2 x s).2 fun j _ ⟨hdown, hup⟩ => by
    rw [hmarked, hup] at hdown
    exact Bool.false_ne_true hdown
  have hmask : t.fxoaState = 1#16 <<< k := by rw [htfxoa, hmarked, hkeypad]
  have hqualifies (j : Nat) : KeyQualifies (t.hostWrite (.keypad 0)) j ↔ j = k := by
    simp [KeyQualifies, State.hostWrite, hmask, keyMask_getLsbD hk]
  obtain ⟨u, hu, hux, -, hufxoa, hadv, -⟩ := (ldVxKWaitsForARelease.2 x (t.hostWrite (.keypad 0))).1 k hk
    ((hqualifies k).2 rfl) fun j hj hq => by
      rw [hqualifies] at hq
      omega
  have hpc : t.pc = s.pc := hst .pc (by decide)
  refine ⟨t, u, ht, hpc, hst .v (by decide) x, hmask, hu, hux, hufxoa, ?_⟩
  rwa [Advanced, ← hpc]

/-- Settles O51: FX15 sets the timer, each Tick takes one off, and FX07 reads what is left. -/
theorem delayTimerReadsBackLessTheTicks : Obligations.DelayTimerReadsBackLessTheTicks := by
  intro x y s k
  obtain ⟨-, ⟨t, ht, htdelay, -⟩, -⟩ := timerRegisterMoves.2.2.2 x s
  obtain ⟨⟨u, hu, huy, -⟩, -⟩ := timerRegisterMoves.2.2.2 y (State.tick^[k] t)
  refine ⟨t, u, ht, hu, ?_⟩
  rw [huy, State.delayTimer_tick_iterate, countdown_iterate_toNat, htdelay]

/-- Settles O52: both timers count down, and the trace grows where the sound timer was nonzero. -/
theorem tickCountsDownAndBeeps : Obligations.TickCountsDownAndBeeps :=
  ⟨fun s => ⟨countdown_toNat _, countdown_toNat _, s.tick_unchanged⟩, fun z hm => by
    rw [Session.issue_tick hm]
    exact ⟨rfl, hm, z.tick_trace⟩⟩

/-- Settles O53, by induction on the commands: each adds to the trace what it adds to the count. -/
theorem beepsCountTheSoundingTicks : Obligations.BeepsCountTheSoundingTicks := by
  intro cs
  induction cs with
  | nil => exact fun _ => rfl
  | cons c cs ih =>
    intro z
    rw [Session.issueAll, List.foldl_cons, ← Session.issueAll, ih, Session.issue_trace_length, beepingTicks,
      Nat.add_assoc]

end Sys2Proof.Machine
end

section
/-!
PROOFS. Init, Reset, the host writes and the launch of a program (spec/70_reset_and_hazards.md R240, R241, R248;
spec/10_state.md R41, R43).
-/

namespace Sys2Proof.Machine

/-! ## Init and Reset -/

theorem State.doReset_reg (s : State) (x : Reg) : s.doReset.reg x = 0 := by
  simp [State.doReset, State.reg]

theorem State.doReset_stack (s : State) (k : Fin 16) : s.doReset.stack[k] = 0 := by
  simp [State.doReset]

theorem State.doReset_pix (s : State) (px : Fin 64) (py : Fin 32) :
    s.doReset.display.pix px py = if s.quirk .clearScreenOnReset then false else s.display.pix px py := by
  rw [State.doReset, apply_ite (Display.pix · px py), Display.pix_clear]

theorem State.doReset_unchanged (s : State) :
    UnchangedBut [.v, .i, .pc, .sp, .stack, .opcode, .keypad, .fxoaState, .delayTimer, .soundTimer, .cpuState,
      .cycles, .display] s s.doReset := by
  intro e he
  cases e with
  | quirks | drawDisplay | params | draws | cycleDraws => rfl
  | ram => exact fun _ => rfl
  | _ => simp at he

/-- After `Init` no byte is listed (R240). -/
theorem State.doInit_memRead (s : State) {a : Nat} (ha : a < 4096) : s.doInit.memRead a = unlisted s.params.font a :=
  s.doInit.memRead_of_lt ha

/-! ## Host writes (R43) -/

theorem State.hostWrite_unchanged (s : State) (w : HostWrite) : UnchangedBut [w.element] s (s.hostWrite w) := by
  cases w with
  | v => exact s.setReg_unchanged _ _
  | sp => exact s.setSp_unchanged _
  | stack => exact s.setStackSlot_unchanged _ _
  | opcode => exact s.setOpcode_unchanged _
  | fxoaState => exact s.setFxoa_unchanged _
  | delayTimer => exact s.setDelay_unchanged _
  | soundTimer => exact s.setSound_unchanged _
  | cpuState => exact s.setCpu_unchanged _
  | ram => exact s.memWrite_unchanged _ _
  | pixel => exact s.setDisplay_unchanged _
  | drawDisplay => exact s.setDrawDisplay_unchanged _
  | i | pc | keypad | cycles | quirks =>
    intro e he
    cases e <;> simp_all [HostWrite.element, Element.same, State.hostWrite, State.reg, State.memRead]

theorem State.hostWrite_stack (s : State) (k : Nibble) (w : Word) (j : Fin 16) :
    (s.hostWrite (.stack k w)).stack[j] = if j.val = k.toNat then w else s.stack[j] := by
  have hk := k.isLt
  have hslot : (k.setWidth 16).toNat % 16 = k.toNat := by
    rw [BitVec.toNat_setWidth]
    omega
  simp only [State.hostWrite, State.setStackSlot_stack, Fin.getElem_fin, Vector.getElem_set, hslot,
    eq_comm (a := k.toNat)]

theorem State.hostWrite_pixel (s : State) (px : Fin 64) (py : Fin 32) (on : Bool) (qx : Fin 64) (qy : Fin 32) :
    (s.hostWrite (.pixel px py on)).display.pix qx qy = if qx = px ∧ qy = py then on else s.display.pix qx qy := by
  by_cases hq : qx = px ∧ qy = py <;> cases on <;>
    simp [State.hostWrite, Display.pix_setPix, Display.pix_clearPix, hq]

/-! ## The image of a program (R248) -/

/-- The host write of one byte of an image, with its place in the image (`launch_eq`). -/
def imageWrite (p : Byte × Nat) : HostWrite := .ram (BitVec.ofNat 12 (Config.entry.toNat + p.2)) p.1

theorem Session.issueAll_writes {z : Session} (hm : z.mark = none) (ws : List HostWrite) :
    z.issueAll (ws.map Command.write) = { z with machine := ws.foldl State.hostWrite z.machine } := by
  induction ws generalizing z with
  | nil => rfl
  | cons w ws ih =>
    have hissue : z.issue (.write w) = { z with machine := z.machine.hostWrite w } := by
      rw [Session.issue, hm]
      rfl
    rw [List.map_cons, Session.issueAll, List.foldl_cons, hissue]
    exact ih hm

/-- A launch is `Init` and then a list of host writes. -/
theorem launch_eq (s : State) (q : Byte) {image : List Byte} (h : image.length ≤ 3584) :
    launch s q image = some (Session.start
      ((image.zipIdx.map imageWrite).foldl State.hostWrite (s.doInit.hostWrite (.quirks q)))) := by
  have hload : loadCommands image = some ((image.zipIdx.map imageWrite).map Command.write) := by
    rw [loadCommands, List.map_map]
    exact if_pos h
  rw [launch, bootCommands, hload]
  exact congrArg some
    (Session.issueAll_writes (z := Session.start s.doInit) rfl (.quirks q :: image.zipIdx.map imageWrite))

theorem State.hostWrite_imageWrite (s : State) (b : Byte) {n : Nat} (hn : n < 3584) :
    s.hostWrite (imageWrite (b, n)) = s.memWrite (0x200 + n) b := by
  have ha : (BitVec.ofNat 12 (0x200 + n)).toNat = 0x200 + n := by
    rw [BitVec.toNat_ofNat]
    omega
  exact congrArg (s.memWrite · b) ha

/-- Image writes change `ram` and nothing else. -/
theorem State.imageWrites_unchanged (s : State) (ps : List (Byte × Nat)) :
    UnchangedBut [.ram] s ((ps.map imageWrite).foldl State.hostWrite s) := by
  induction ps generalizing s with
  | nil => exact UnchangedBut.refl _ _
  | cons p ps ih => exact (s.hostWrite_unchanged (imageWrite p)).trans (ih _)

/-- An image loaded from its byte `n` on leaves every byte outside it alone. -/
theorem State.imageWrites_memRead_other (s : State) {image : List Byte} {n a : Nat} (hn : n + image.length ≤ 3584)
    (ha : a < 4096) (hout : a < 0x200 + n ∨ 0x200 + n + image.length ≤ a) :
    (((image.zipIdx n).map imageWrite).foldl State.hostWrite s).memRead a = s.memRead a := by
  induction image generalizing s n with
  | nil => rfl
  | cons b image ih =>
    rw [List.length_cons] at hn hout
    rw [List.zipIdx_cons, List.map_cons, List.foldl_cons, ih _ (by omega) (by omega),
      State.hostWrite_imageWrite _ _ (by omega)]
    exact s.memRead_memWrite_other b (by rw [Config.ramSize]; omega)

/-- An image loaded from its byte `n` on is in place: the later bytes do not overwrite the earlier ones. -/
theorem State.imageWrites_memRead {s : State} (hs : s.memWf) {image : List Byte} {n k : Nat}
    (hn : n + image.length ≤ 3584) (hk : k < image.length) :
    (((image.zipIdx n).map imageWrite).foldl State.hostWrite s).memRead (0x200 + n + k) = image.getD k 0 := by
  induction image generalizing s n k with
  | nil => exact absurd hk (Nat.not_lt_zero k)
  | cons b image ih =>
    rw [List.length_cons] at hn hk
    have hs' := State.memWrite_memWf hs (0x200 + n) b
    rw [List.zipIdx_cons, List.map_cons, List.foldl_cons, State.hostWrite_imageWrite _ _ (by omega)]
    cases k with
    | zero =>
      rw [Nat.add_zero (0x200 + n), State.imageWrites_memRead_other _ (by omega) (by omega) (by omega),
        State.memRead_memWrite_same hs]
      rfl
    | succ k =>
      rw [show 0x200 + n + (k + 1) = 0x200 + (n + 1) + k by omega, ih hs' (by omega) (by omega)]
      rfl

/-! ## The statements -/

/-- Settles O55: `State.reset` has the values that `Init` writes. -/
theorem resetIsTheStateAfterInit : Obligations.ResetIsTheStateAfterInit := rfl

/-- Settles O54: Init is a Reset that also clears the memory, the display and the quirks. -/
theorem initSetsEveryElement : Obligations.InitSetsEveryElement := by
  intro s
  refine ⟨State.doReset_reg { s with quirks := 0 }, rfl, rfl, rfl, State.doReset_stack { s with quirks := 0 }, rfl, rfl,
    rfl, rfl, rfl, rfl, rfl, rfl, fun a ha => ?_, fun a hfont ha => ?_, Display.pix_clear, rfl, rfl⟩
  · rw [s.doInit_memRead (by omega)]
    exact dif_pos ha
  · rw [s.doInit_memRead ha, unlisted_of_fontSize_le _ hfont]

/-- Settles O56: the elements of the rule are set, and the frame is the rest. -/
theorem resetZeroesAllButMemoryAndQuirks : Obligations.ResetZeroesAllButMemoryAndQuirks := fun s =>
  ⟨s.doReset_reg, rfl, rfl, rfl, s.doReset_stack, rfl, rfl, rfl, rfl, rfl, rfl, rfl, s.doReset_pix,
    s.doReset_unchanged⟩

/-- Settles O59: the frame of every write, and the value that each leaves in its element. -/
theorem hostWritesOneElement : Obligations.HostWritesOneElement := fun s =>
  ⟨s.hostWrite_unchanged, fun x b r => s.reg_setReg x r b, fun _ => ⟨rfl, rfl, rfl, rfl, rfl, rfl⟩,
    fun _ => ⟨rfl, rfl, rfl, rfl⟩, fun _ => rfl, fun _ => rfl, s.hostWrite_stack,
    fun a b => ⟨s.memWrite_ram_unchangedBut _ _, fun hs =>
      ⟨State.memWrite_memWf hs _ _, State.memRead_memWrite_same hs a.toNat b⟩⟩,
    s.hostWrite_pixel⟩

/-- Settles O60: the launch as host writes on the state after Init, which change `quirks` and then `ram` alone. -/
theorem launchPlacesTheProgram : Obligations.LaunchPlacesTheProgram := by
  intro s q image himage
  have hload := (s.doInit.hostWrite (.quirks q)).imageWrites_unchanged image.zipIdx
  refine ⟨_, launch_eq s q himage, rfl, rfl, hload .quirks (by decide), fun k hk => ?_, fun a ha hout => ?_,
    (s.doInit.hostWrite_unchanged (.quirks q)).append hload⟩
  · exact State.imageWrites_memRead (s := s.doInit.hostWrite (.quirks q)) s.doInit_memWf (n := 0) (by omega) hk
  · exact State.imageWrites_memRead_other (s.doInit.hostWrite (.quirks q)) (n := 0) (by omega) ha (by omega)

end Sys2Proof.Machine
end
